-- ==== Sys2Proof/Word.lean ====
section
/-! DEFINITION. The bit-vector types of the SF32 core: operand patterns, op codes, request words, host bytes. -/

namespace Sys2Proof

/-- A SoftFloat pattern: what `A`, `B`, `Y` and every 32-bit port hold (10_state.md R28, 00_scope.md R10). -/
abbrev Word := BitVec 32

/-- The op field of a request (30_encoding.md R38, R39). -/
abbrev OpCode := BitVec 2

/-- The request word `CMD[65:0] = {op, a, b}` (30_encoding.md R38). -/
abbrev CmdWord := BitVec 66

/-- A byte of host memory; the core itself has no bytes (20_memory.md R31). -/
abbrev Byte := BitVec 8

end Sys2Proof
end

