-- ==== Sys2Proof/Config.lean ====
section
/-! DEFINITION. The parameters that are fixed when the hardware is built (00_scope.md R11). -/

namespace Sys2Proof

/-- `NORM_COLLAPSE_SHIFT`, an OPEN parameter with exactly two legal values (00_scope.md R11,
92_eei_decisions.md D9, 90_conflicts.md C3). -/
inductive CollapseShift where
  /-- 23, the source's literal and the default. -/
  | source23
  /-- 26, the value that collapses only a zero magnitude. -/
  | ieee26
deriving DecidableEq, Repr

/-- The build-time parameters of one SF32 core (00_scope.md R11).
`EXP_PACK` has one legal value, modulo 256, and is therefore no field (`Machine.expPack`). -/
structure Config where
  /-- `DIV_ITERS`: iterations of the long divider; legal values are at least 48. -/
  divIters : Nat
  /-- `NORM_COLLAPSE_SHIFT`: the largest left shift that normalization accepts. -/
  collapseShift : CollapseShift
  /-- `LATENCY`: clock cycles from request acceptance to response valid; at least 1. -/
  latency : Nat
deriving DecidableEq, Repr

/-- The default of every parameter (the column "default" of 00_scope.md R11). -/
def Config.defaults : Config where
  divIters := 48
  collapseShift := .source23
  latency := 1

end Sys2Proof
end

