-- ==== Sys2Proof/Syntax.lean ====
section
/-! DEFINITION. Requests and instructions of the SF32 core, one constructor per row of spec/opcode_table.json. -/

namespace Sys2Proof

/-- One request as it stands on the request port (10_state.md R16, R17). -/
structure Request where
  op : OpCode
  a : Word
  b : Word
deriving DecidableEq, Repr

/-- The core's "instruction set": the op field of a request, each with the two operands that arrive
with it (00_scope.md R4, 30_encoding.md R38, R39). Every request carries both operands. -/
inductive Instr where
  /-- `op = 00`: a + b (41_add.md R56). -/
  | fadd (a b : Word)
  /-- `op = 01`: a × b (42_multiply.md R65). -/
  | fmul (a b : Word)
  /-- `op = 10`: a ÷ b (43_divide.md R71). -/
  | fdiv (a b : Word)
  /-- `op = 11`: the reserved code, answered with an error response (60_exceptions.md R77). -/
  | reserved (a b : Word)
deriving DecidableEq, Repr

/-- The op code of an instruction (30_encoding.md R39). -/
def Instr.op : Instr → OpCode
  | .fadd _ _ => 0b00#2
  | .fmul _ _ => 0b01#2
  | .fdiv _ _ => 0b10#2
  | .reserved _ _ => 0b11#2

/-- The first operand of an instruction. -/
def Instr.a : Instr → Word
  | .fadd a _ => a
  | .fmul a _ => a
  | .fdiv a _ => a
  | .reserved a _ => a

/-- The second operand of an instruction. -/
def Instr.b : Instr → Word
  | .fadd _ b => b
  | .fmul _ b => b
  | .fdiv _ b => b
  | .reserved _ b => b

/-- The request that asks for an instruction. -/
def Instr.request (i : Instr) : Request where
  op := i.op
  a := i.a
  b := i.b

end Sys2Proof
end

