-- ==== Sys2Proof/WellFormed.lean ====
section
/-! DEFINITION. The checks on what a session writes down: instructions, build parameters, frame padding. -/

namespace Sys2Proof

/-- Every instruction is well formed: "No validation performed; any 32-bit pattern is representable"
(30_encoding.md R40, R42). The operand types already hold exactly the 2^32 patterns, so there is no
instruction to refuse. -/
def Instr.wellFormed : Instr → Bool
  | .fadd _ _ => true
  | .fmul _ _ => true
  | .fdiv _ _ => true
  | .reserved _ _ => true

/-- The legal values of the build parameters (00_scope.md R11): `DIV_ITERS >= 48`, `LATENCY >= 1`;
`NORM_COLLAPSE_SHIFT` is 23 or 26 by its type. -/
def Config.legal (c : Config) : Bool :=
  decide (48 ≤ c.divIters) && decide (1 ≤ c.latency)

/-- The ninth byte of a request frame holds `op` in bits 1..0; its other six bits lie beyond the
66-bit word of 30_encoding.md R38 and must be 0. DESIGN CHOICE (log entry 4). -/
def framePaddingClear (last : Byte) : Bool :=
  last >>> 2 == 0#8

end Sys2Proof
end

