-- ==== Sys2Proof/Decode.lean ====
section
/-! DEFINITION. The request decoder, total on 66-bit words and on any list of bytes, and the encoder after it. -/

namespace Sys2Proof

/-! ### Decoding -/

/-- Bits 65..64 of a request word (30_encoding.md R38). -/
def cmdOp (w : CmdWord) : OpCode := w.extractLsb' 64 2

/-- Bits 63..32 of a request word (30_encoding.md R38). -/
def cmdA (w : CmdWord) : Word := w.extractLsb' 32 32

/-- Bits 31..0 of a request word (30_encoding.md R38). -/
def cmdB (w : CmdWord) : Word := w.extractLsb' 0 32

/-- A request word taken apart into the three port fields (30_encoding.md R38). -/
def requestOfCmd (w : CmdWord) : Request where
  op := cmdOp w
  a := cmdA w
  b := cmdB w

/-- The instruction a request asks for: "A decoder needs only `op`" (30_encoding.md R39). -/
def decodeRequest (r : Request) : Instr :=
  if r.op = 0b00#2 then .fadd r.a r.b
  else if r.op = 0b01#2 then .fmul r.a r.b
  else if r.op = 0b10#2 then .fdiv r.a r.b
  else .reserved r.a r.b

/-- The instruction in a request word; every one of the 2^66 words decodes (10_state.md R16). -/
def decodeCmd (w : CmdWord) : Instr := decodeRequest (requestOfCmd w)

/-- Why a list of bytes is no request frame. -/
inductive DecodeError where
  /-- Fewer than nine bytes. -/
  | truncated
  /-- A bit above bit 65 is set: the bytes hold no 66-bit request word. -/
  | paddingSet
deriving DecidableEq, Repr

/-- The request word in nine bytes, the first the least significant. -/
def cmdOfBytes (b0 b1 b2 b3 b4 b5 b6 b7 b8 : Byte) : CmdWord :=
  b8.setWidth 2 ++ b7 ++ b6 ++ b5 ++ b4 ++ b3 ++ b2 ++ b1 ++ b0

/-- Reads one request frame from the front of a byte list. The core moves no bytes; the frame is the
little-endian layout a host uses for patterns (20_memory.md R31, D17), extended to the 66-bit word.
DESIGN CHOICE (log entry 4). -/
def decodeBytes : List Byte → Except DecodeError (Instr × List Byte)
  | b0 :: b1 :: b2 :: b3 :: b4 :: b5 :: b6 :: b7 :: b8 :: rest =>
    if framePaddingClear b8 then .ok (decodeCmd (cmdOfBytes b0 b1 b2 b3 b4 b5 b6 b7 b8), rest)
    else .error .paddingSet
  | _ => .error .truncated

/-- The low `n` bytes of a number, the least significant first. -/
def bytesOfNat : Nat → Nat → List Byte
  | 0, _ => []
  | n + 1, w => BitVec.ofNat 8 w :: bytesOfNat n (w / 256)

/-- The decoder on a row of spec/opcode_table.json: bit 0 of `w` is bit 0 of the request word, laid
out as one nine-byte frame. A number with a bit above bit 65 is no request word. -/
def decodeTableWord (_nbits w : Nat) : Option Instr :=
  if w < 2 ^ 72 then
    match decodeBytes (bytesOfNat 9 w) with
    | .ok (i, _) => some i
    | .error _ => none
  else none

/-! ### Encoding -/

/-- The request word of a request: `{op, a, b}`, most significant first (30_encoding.md R38). -/
def cmdOfRequest (r : Request) : CmdWord := r.op ++ r.a ++ r.b

/-- The request word of an instruction (30_encoding.md R38, R39). -/
def encode (i : Instr) : CmdWord := cmdOfRequest i.request

/-- The nine-byte frame of an instruction, written from its fields: `b`, then `a`, then `op`, each
with its low byte first. -/
def encodeBytes (i : Instr) : List Byte :=
  [i.b.extractLsb' 0 8, i.b.extractLsb' 8 8, i.b.extractLsb' 16 8, i.b.extractLsb' 24 8,
   i.a.extractLsb' 0 8, i.a.extractLsb' 8 8, i.a.extractLsb' 16 8, i.a.extractLsb' 24 8,
   i.op.setWidth 8]

end Sys2Proof
end

