-- ==== Sys2Proof/Machine/State.lean ====
section
/-! DEFINITION. The state of the SF32 core and of the pins the host drives, with the state after reset. -/

namespace Sys2Proof.Machine

/-- The control register `STATE` (10_state.md R20). Its encoding is left to the implementation. -/
inductive CtrlState where
  | idle
  | busy
  | done
deriving DecidableEq, Repr

/-- The values on the input ports just before one rising edge of `clk` (10_state.md R17).
`clk` itself is no data: one step of the machine is one rising edge. -/
structure Pins where
  rst : Bool
  reqValid : Bool
  reqOp : OpCode
  reqA : Word
  reqB : Word
  rspReady : Bool
deriving DecidableEq, Repr

/-- A host that asks for nothing: no reset, no request, no response taken. -/
def Pins.quiet : Pins where
  rst := false
  reqValid := false
  reqOp := 0b00#2
  reqA := 0#32
  reqB := 0#32
  rspReady := false

/-- The seven registers of the block (10_state.md R18 to R21), the parameters it was built with
(00_scope.md R11), and what the host will drive on the input ports (10_state.md R17). -/
structure State where
  /-- Request register `OP` (10_state.md R18). -/
  op : OpCode
  /-- Request register `A` (10_state.md R18). -/
  a : Word
  /-- Request register `B` (10_state.md R18). -/
  b : Word
  /-- Response register `Y` (10_state.md R19). -/
  y : Word
  /-- Response register `ERR` (10_state.md R19, R23). -/
  err : Bool
  /-- Control register `STATE` (10_state.md R20). -/
  state : CtrlState
  /-- Control register `CNT` (10_state.md R20). -/
  cnt : Nat
  /-- The build-time parameters; no step changes them (10_state.md R24). -/
  config : Config
  /-- The pins at the coming edges, the next edge first; past its end the host is quiet
  (log entry 2). -/
  drive : List Pins
deriving DecidableEq, Repr

/-- The model faults of 60_exceptions.md R78. Stopping is safe: the model has no value for the case,
and no claim about a next state covers it. No accepted request reaches either (60_exceptions.md R75). -/
inductive Fault where
  /-- Raised by `hsb` on 0 (40_primitives.md R46). Safe. -/
  | hsbOfZero
  /-- Raised by `longdiv` on a zero divisor (40_primitives.md R52). Safe. -/
  | divisorZero
deriving DecidableEq, Repr

/-- Why the model gives an instruction no meaning. -/
inductive Refusal where
  /-- Raised by an arm of `exec` for an instruction that has no meaning yet; safe. No arm raises it now. -/
  | notModelled (mnemonic : String)
deriving DecidableEq, Repr

/-- The state after a rising edge with `rst = 1` (10_state.md R29, 70_reset_and_hazards.md R85), in a
core built with the default parameters, before a quiet host. -/
def State.reset : State where
  op := 0b00#2
  a := 0#32
  b := 0#32
  y := 0#32
  err := false
  state := .idle
  cnt := 0
  config := Config.defaults
  drive := []

end Sys2Proof.Machine
end

