-- ==== Sys2Proof/Machine/Operands.lean ====
section
/-! DEFINITION. The operand format: the bit-field view of a pattern, operand assembly, and packing. -/

namespace Sys2Proof.Machine

/-- The three fields of a SoftFloat pattern (30_encoding.md R40). -/
structure Fields where
  /-- The sign, `w[31]`; false is positive. -/
  s : Bool
  /-- The exponent field, `w[30:23]`, biased by 127. -/
  e : BitVec 8
  /-- The mantissa field, `w[22:0]`, hidden bit not stored. -/
  f : BitVec 23
deriving DecidableEq, Repr

/-- The read side of the bit-field view (30_encoding.md R40). -/
def unpack (w : Word) : Fields where
  s := w.getLsbD 31
  e := w.extractLsb' 23 8
  f := w.extractLsb' 0 23

/-- The 24-bit significand: the hidden bit is inserted for EVERY exponent field (30_encoding.md R41,
90_conflicts.md C1). -/
def sig (f : BitVec 23) : Nat := 2 ^ 23 ||| f.toNat

/-- The 27-bit wide mantissa: the significand with three zero GRS bits (30_encoding.md R41). -/
def wide (f : BitVec 23) : Nat := sig f <<< 3

/-- The unbiased exponent, used by FMUL and FDIV (30_encoding.md R41). -/
def unbias (e : BitVec 8) : Int := (e.toNat : Int) - 127

/-- `EXP_PACK`: a working exponent modulo 256, with no saturation and no carry into the sign
(40_primitives.md R45, D7). -/
def expPack (e : Int) : BitVec 8 := BitVec.ofNat 8 (e % 256).toNat

/-- The write side of the bit-field view: `{s, EXP_PACK(e), M[22:0]}` (40_primitives.md R45). -/
def pack (s : Bool) (e : Int) (M : Nat) : Word :=
  BitVec.ofBool s ++ expPack e ++ BitVec.ofNat 23 M

end Sys2Proof.Machine
end

