-- ==== Sys2Proof/Machine/Flags.lean ====
section
/-! DEFINITION. The only status bit of the core, `ERR`; the core has no condition flags and no IEEE flags. -/

namespace Sys2Proof.Machine

/-- `ERR` after FADD, FMUL and FDIV: no operand and no result is an error (10_state.md R16, R23,
60_exceptions.md R76). -/
def errNone : Bool := false

/-- `ERR` after the reserved op code, the only error response (60_exceptions.md R77). -/
def errReserved : Bool := true

end Sys2Proof.Machine
end

