-- ==== Sys2Proof/Machine/Primitives.lean ====
section
/-! DEFINITION. The datapath primitives of 40_primitives.md: bit scan, normalization, rounding, alignment,
wide multiply, long division, finishing and result assembly. Arithmetic is exact on naturals and
integers (00_scope.md R12). -/

namespace Sys2Proof.Machine

/-! ### Bit scan (R46) -/

/-- `hsb(v)`, the index of the most significant set bit, `floor(log2 v)`; 0 is the guarded case
(40_primitives.md R46, 00_scope.md R12). -/
def hsb (v : Nat) : Except Fault Nat :=
  if v = 0 then .error .hsbOfZero else .ok (Nat.log2 v)

/-- The portable shift-loop implementation of the bit scan: how often `v` can be halved before it is
1 (40_primitives.md R46). `fuel` is the operand width. -/
def hsbLoop : Nat → Nat → Nat
  | 0, _ => 0
  | fuel + 1, v => if v ≤ 1 then 0 else hsbLoop fuel (v >>> 1) + 1

/-- Leading zeros among the low `n` bits of `v`; the count-leading-zeros implementation of the bit
scan is `31 - clz 32 v` (40_primitives.md R46). -/
def clz : Nat → Nat → Nat
  | 0, _ => 0
  | n + 1, v => if v.testBit n then 0 else clz n v + 1

/-- The outputs of the bit-scan unit in hardware (40_primitives.md R46, D15). -/
structure BitScan where
  zero : Bool
  index : BitVec 5
deriving DecidableEq, Repr

/-- The bit-scan unit. Its index output is unspecified when the input is 0
(93_implementation_defined.md U13), so that value is the argument `unspecified`. -/
def bitScanUnit (unspecified : BitVec 5) (v : Word) : BitScan where
  zero := v == 0#32
  index := if v = 0#32 then unspecified else BitVec.ofNat 5 (31 - clz 32 v.toNat)

/-! ### Shift with sticky (R49, R50) -/

/-- `shr_sticky(v, k)`: a right shift whose bit 0 also collects every dropped bit (40_primitives.md R49). -/
def shrSticky (v k : Nat) : Nat :=
  if k = 0 then v else v >>> k ||| (if v % 2 ^ k ≠ 0 then 1 else 0)

/-- `align(v, k)`: `k` one-bit right shifts, each ORing the bit shifted out into bit 0
(40_primitives.md R50). -/
def align (v : Nat) : Nat → Nat
  | 0 => v
  | k + 1 => align (v >>> 1 ||| v % 2) k

/-! ### Normalization (R47) -/

/-- The number that `NORM_COLLAPSE_SHIFT` stands for (00_scope.md R11). -/
def collapseLimit : CollapseShift → Int
  | .source23 => 23
  | .ieee26 => 26

/-- The tagged result of the normalizer; `collapsed` is the source's DENORMAL sentinel
(00_scope.md R12, 10_state.md R27). -/
inductive Normalized where
  | collapsed
  | normal (w : Nat) (sh : Int)
deriving DecidableEq, Repr

/-- `normalize(m)`: the hidden bit goes to bit 26 of the window (40_primitives.md R47). Zero is never
passed to the bit scan (D13). -/
def normalize (limit : CollapseShift) (m : Nat) : Except Fault Normalized :=
  if m = 0 then .ok .collapsed
  else
    match hsb m with
    | .error f => .error f
    | .ok h =>
      let sh : Int := 26 - (h : Int)
      if sh > collapseLimit limit then .ok .collapsed
      else if sh > 0 then .ok (.normal (m <<< sh.toNat) sh)
      else .ok (.normal (shrSticky m (-sh).toNat) sh)

/-! ### Rounding (R48) -/

/-- `round(w)`: to nearest, ties to even, on the GRS bits of a window (40_primitives.md R48). -/
def roundEven (w : Nat) : Nat :=
  let grs := w % 8
  let clean := w >>> 3
  if grs > 4 ∨ (grs = 4 ∧ clean % 2 = 1) then clean + 1 else clean

/-! ### Wide multiply (R51) -/

/-- The shift-and-add loop over bits `0 .. n-1` of `b`. -/
def mulLoop (a b : Nat) : Nat → Nat
  | 0 => 0
  | n + 1 => mulLoop a b n + (if b.testBit n then a <<< n else 0)

/-- `mulwide(a, b)`: the exact product, iterating up to `b`'s highest set bit; no bit scan for `b = 0`
(40_primitives.md R51, D15). -/
def mulwide (a b : Nat) : Except Fault Nat :=
  if b = 0 then .ok 0
  else
    match hsb b with
    | .error f => .error f
    | .ok h => .ok (mulLoop a b (h + 1))

/-! ### Long division (R52) -/

/-- What `longdiv` returns: the quotient and the sticky flag of the remainder. -/
structure Quotient where
  q : Nat
  st : Nat
deriving DecidableEq, Repr

/-- The restoring loop: `iters` steps on the running remainder `R` and the quotient `Q` so far
(40_primitives.md R52). -/
def longdivLoop (V : Nat) : (iters R Q : Nat) → Nat × Nat
  | 0, R, Q => (R, Q)
  | n + 1, R, Q =>
    if R ≥ V then longdivLoop V n ((R - V) <<< 1) (Q <<< 1 ||| 1)
    else longdivLoop V n (R <<< 1) (Q <<< 1)

/-- `longdiv(D, V)` with `DIV_ITERS` iterations; a zero divisor is the guarded case
(40_primitives.md R52). -/
def longdiv (iters D V : Nat) : Except Fault Quotient :=
  if V = 0 then .error .divisorZero
  else
    let r := longdivLoop V iters D 0
    .ok { q := r.2, st := if r.1 ≠ 0 then 1 else 0 }

/-! ### Finishing (R53, R54) -/

/-- Every intermediate of the two normalize and round passes (10_state.md R26, 40_primitives.md R53). -/
structure Passes where
  /-- The first window. -/
  w1 : Nat
  /-- The first normalization shift. -/
  sh1 : Int
  /-- The first rounded significand. -/
  r1 : Nat
  /-- The second window. -/
  w2 : Nat
  /-- The second normalization shift. -/
  sh2 : Int
  /-- The final significand. -/
  r2 : Nat
  /-- The final working exponent. -/
  e2 : Int
deriving DecidableEq, Repr

/-- What `finish` returns: the `Collapsed` tag, or the passes that end in `Normal(r2, e2)`. -/
inductive Finished where
  | collapsed
  | normal (p : Passes)
deriving DecidableEq, Repr

/-- `finish(m, e)`: normalize, round, re-extend by three bits, normalize and round again
(40_primitives.md R53). The second pass never collapses; its tag is passed on all the same
(log entry 8). -/
def finish (limit : CollapseShift) (m : Nat) (e : Int) : Except Fault Finished :=
  match normalize limit m with
  | .error f => .error f
  | .ok .collapsed => .ok .collapsed
  | .ok (.normal w1 sh1) =>
    let r1 := roundEven w1
    match normalize limit (r1 <<< 3) with
    | .error f => .error f
    | .ok .collapsed => .ok .collapsed
    | .ok (.normal w2 sh2) =>
      .ok (.normal { w1, sh1, r1, w2, sh2, r2 := roundEven w2, e2 := e - sh1 - sh2 })

/-- Result assembly: `Collapsed` packs as `0x00000000` whatever the sign (40_primitives.md R54, D14). -/
def result (s : Bool) : Finished → Word
  | .collapsed => 0#32
  | .normal p => pack s p.e2 p.r2

/-- The last line of every operator: `result(s, finish(m, E))`. -/
def finishResult (limit : CollapseShift) (s : Bool) (m : Nat) (e : Int) : Except Fault Word :=
  match finish limit m e with
  | .error f => .error f
  | .ok r => .ok (result s r)

end Sys2Proof.Machine
end

