-- ==== Sys2Proof/Machine/Ops.lean ====
section
/-! DEFINITION. The named operations on the registers and the pins: what an edge can do to the core, and
what its output ports show. -/

namespace Sys2Proof.Machine

/-! ### Ports -/

/-- The pins just before the coming edge. -/
def State.pins (s : State) : Pins := s.drive.headD Pins.quiet

/-- The request on the request port (70_reset_and_hazards.md R84). -/
def Pins.request (p : Pins) : Request where
  op := p.reqOp
  a := p.reqA
  b := p.reqB

/-- The output ports (10_state.md R17). -/
structure Outputs where
  reqReady : Bool
  rspValid : Bool
  rspY : Word
  rspErr : Bool
deriving DecidableEq, Repr

/-- The outputs are functions of the registers alone (70_reset_and_hazards.md R84). -/
def State.outputs (s : State) : Outputs where
  reqReady := s.state == .idle
  rspValid := s.state == .done
  rspY := s.y
  rspErr := s.err

/-- The request held in `OP`, `A` and `B`. -/
def State.request (s : State) : Request where
  op := s.op
  a := s.a
  b := s.b

/-- The instruction held in `OP`, `A` and `B`. -/
def State.current (s : State) : Instr := decodeRequest s.request

/-! ### Register updates of one edge -/

/-- The coming edge's pins are past. -/
def State.tick (s : State) : State := { s with drive := s.drive.tail }

/-- Every register at its reset value (70_reset_and_hazards.md R85). -/
def State.applyReset (s : State) : State :=
  { s with op := 0b00#2, a := 0#32, b := 0#32, y := 0#32, err := false, state := .idle, cnt := 0 }

/-- Acceptance: the request is captured whole, and the latency count starts
(70_reset_and_hazards.md R84, 20_memory.md R33). -/
def State.accept (r : Request) (s : State) : State :=
  { s with op := r.op, a := r.a, b := r.b, cnt := s.config.latency, state := .busy }

/-- The width of `CNT`, `ceil(log2(LATENCY + 1))` bits (10_state.md R20). -/
def cntWidth (c : Config) : Nat := Nat.log2 c.latency + 1

/-- `CNT <- CNT - 1` in a register of `cntWidth` bits. `CNT = 0` while busy is reached by no run; there
the register wraps (log entry 7). -/
def State.countDown (s : State) : State :=
  { s with cnt := if s.cnt = 0 then 2 ^ cntWidth s.config - 1 else s.cnt - 1 }

/-- Completion: `Y` and `ERR` are written together (70_reset_and_hazards.md R84, 20_memory.md R33). -/
def State.complete (y : Word) (err : Bool) (s : State) : State :=
  { s with y := y, err := err, cnt := 0, state := .done }

/-- The host takes the response; `Y` and `ERR` keep their values (70_reset_and_hazards.md R84). -/
def State.release (s : State) : State := { s with state := .idle }

/-! ### Answering a request -/

/-- An operator's result as the outcome of its instruction: completion with that result, or the model
fault that a primitive raised (60_exceptions.md R78). -/
def answer (r : Except Fault Word) (err : Bool) (s : State) : Host.Outcome State Fault Refusal :=
  match r with
  | .ok y => .next (s.complete y err)
  | .error f => .fault f

/-! ### Placing an instruction from outside -/

/-- The state in which a request stands in the request registers and the coming edge, a quiet one,
completes it (log entry 5). -/
def State.placeRequest (r : Request) (s : State) : State :=
  { s with op := r.op, a := r.a, b := r.b, cnt := 1, state := .busy, drive := Pins.quiet :: s.drive }

end Sys2Proof.Machine
end

