-- ==== Sys2Proof/Machine/Add.lean ====
section
/-! DEFINITION. FADD (41_add.md). -/

namespace Sys2Proof.Machine

/-- The transient values of one FADD before `finish` (10_state.md R26): the aligned wide mantissas, the
larger exponent field, the magnitude into `finish` and the sign before assembly. -/
structure AddPath where
  mA : Nat
  mB : Nat
  E : Nat
  m : Nat
  s : Bool
deriving DecidableEq, Repr

/-- The datapath of FADD up to `finish` (41_add.md R56): equal signs add; different signs take the
difference that has the negative operand subtracted, and negate it if it is negative. -/
def addPath (a b : Word) : AddPath :=
  let ua := unpack a
  let ub := unpack b
  let delta : Int := (ua.e.toNat : Int) - (ub.e.toNat : Int)
  let mA := if delta ≥ 0 then wide ua.f else align (wide ua.f) (-delta).toNat
  let mB := if delta ≥ 0 then align (wide ub.f) delta.toNat else wide ub.f
  let E := if delta ≥ 0 then ua.e.toNat else ub.e.toNat
  let d : Int := if ua.s then (mB : Int) - (mA : Int) else (mA : Int) - (mB : Int)
  { mA, mB, E,
    m := if ua.s = ub.s then mA + mB else if d < 0 then (-d).toNat else d.toNat,
    s := if ua.s = ub.s then ua.s else decide (d < 0) }

/-- `FADD(a, b)` (41_add.md R56). -/
def fadd (c : Config) (a b : Word) : Except Fault Word :=
  let p := addPath a b
  finishResult c.collapseShift p.s p.m p.E

/-- FADD: `Y <- FADD(a, b)`, `ERR <- 0` (41_add.md R56, 10_state.md R16). -/
def execFadd (a b : Word) (s : State) : Host.Outcome State Fault Refusal :=
  answer (fadd s.config a b) errNone s

end Sys2Proof.Machine
end

