-- ==== Sys2Proof/Machine/Divide.lean ====
section
/-! DEFINITION. FDIV (43_divide.md). -/

namespace Sys2Proof.Machine

/-- The transient values of one FDIV before `finish` (10_state.md R26): the quotient, the remainder flag,
the window, the working exponent and the sign. -/
structure DivPath where
  Q : Nat
  st : Nat
  W : Nat
  E : Int
  s : Bool
deriving DecidableEq, Repr

/-- The datapath of FDIV up to `finish`, with `N = DIV_ITERS >= 27`: the quotient bits below bit
`N - 27` and the remainder flag are ORed into bit 0 of the window (43_divide.md R71, D11). -/
def divPath (N : Nat) (a b : Word) : Except Fault DivPath :=
  let ua := unpack a
  let ub := unpack b
  match longdiv N (sig ua.f) (sig ub.f) with
  | .error f => .error f
  | .ok r =>
    .ok { Q := r.q, st := r.st, W := shrSticky r.q (N - 27) ||| r.st,
          E := unbias ua.e - unbias ub.e + 127, s := ua.s ^^ ub.s }

/-- `FDIV(a, b)` (43_divide.md R71). -/
def fdiv (c : Config) (a b : Word) : Except Fault Word :=
  match divPath c.divIters a b with
  | .error f => .error f
  | .ok p => finishResult c.collapseShift p.s p.W p.E

/-- FDIV: `Y <- FDIV(a, b)`, `ERR <- 0` (43_divide.md R71, 10_state.md R16). -/
def execFdiv (a b : Word) (s : State) : Host.Outcome State Fault Refusal :=
  answer (fdiv s.config a b) errNone s

end Sys2Proof.Machine
end

