-- ==== Sys2Proof/Machine/Multiply.lean ====
section
/-! DEFINITION. FMUL (42_multiply.md). -/

namespace Sys2Proof.Machine

/-- The transient values of one FMUL before `finish` (10_state.md R26): the exact product, the window,
the working exponent and the sign. -/
structure MulPath where
  P : Nat
  W : Nat
  E : Int
  s : Bool
deriving DecidableEq, Repr

/-- The datapath of FMUL up to `finish`; the 20 dropped product bits feed the sticky bit
(42_multiply.md R65, D8). -/
def mulPath (a b : Word) : Except Fault MulPath :=
  let ua := unpack a
  let ub := unpack b
  match mulwide (sig ua.f) (sig ub.f) with
  | .error f => .error f
  | .ok P =>
    .ok { P, W := shrSticky P 20, E := unbias ua.e + unbias ub.e + 127, s := ua.s ^^ ub.s }

/-- `FMUL(a, b)` (42_multiply.md R65). -/
def fmul (c : Config) (a b : Word) : Except Fault Word :=
  match mulPath a b with
  | .error f => .error f
  | .ok p => finishResult c.collapseShift p.s p.W p.E

/-- FMUL: `Y <- FMUL(a, b)`, `ERR <- 0` (42_multiply.md R65, 10_state.md R16). -/
def execFmul (a b : Word) (s : State) : Host.Outcome State Fault Refusal :=
  answer (fmul s.config a b) errNone s

end Sys2Proof.Machine
end

