-- ==== Sys2Proof/Machine/Reserved.lean ====
section
/-! DEFINITION. The reserved op code 11 (60_exceptions.md R77). -/

namespace Sys2Proof.Machine

/-- The reserved op code: `Y <- 0x00000000`, `ERR <- 1`; the operands are ignored and no datapath result
is computed (60_exceptions.md R77, 30_encoding.md R42, D5). -/
def execReserved (_a _b : Word) (s : State) : Host.Outcome State Fault Refusal :=
  answer (.ok 0#32) errReserved s

end Sys2Proof.Machine
end

