-- ==== Sys2Proof/Machine/Protocol.lean ====
section
/-! DEFINITION. The cycle-level protocol: what one rising edge of `clk` does (70_reset_and_hazards.md R84, R85). -/

namespace Sys2Proof.Machine

/-- One rising edge. Reset has priority over everything else (60_exceptions.md R79); in `BUSY` with
`CNT = 1` the edge runs the instruction held in `OP`, `A` and `B`; every right-hand side is read
before the edge (70_reset_and_hazards.md R84). -/
def clockEdge (s : State) : Host.Outcome State Fault Refusal :=
  let p := s.pins
  if p.rst then .next s.tick.applyReset
  else
    match s.state with
    | .idle => if p.reqValid then .next (s.tick.accept p.request) else .next s.tick
    | .busy => if s.cnt = 1 then exec s.current s.tick else .next s.tick.countDown
    | .done => if p.rspReady then .next s.tick.release else .next s.tick

end Sys2Proof.Machine
end

