-- ==== Sys2Proof/Machine/Step.lean ====
section
/-! DEFINITION. One step of the machine, and an instruction placed for the next step. -/

namespace Sys2Proof.Machine

/-- One step is one rising edge of `clk` (70_reset_and_hazards.md R84). -/
def step (s : State) : Host.Outcome State Fault Refusal := clockEdge s

/-- `s` with the request word `w` in the request registers, so that the very next step completes it
(log entry 5). -/
def State.withFetchWord (s : State) (_nbits w : Nat) : State :=
  s.placeRequest (requestOfCmd (BitVec.ofNat 66 w))

end Sys2Proof.Machine
end

