-- ==== Sys2Proof/Machine/Transaction.lean ====
section
/-! DEFINITION. The normative, transaction-level model (10_state.md R15, R16), and the way a host drives the
pins to ask for a transaction (70_reset_and_hazards.md R84, R88). -/

namespace Sys2Proof.Machine

/-- The response of one transaction (10_state.md R16). -/
structure Response where
  y : Word
  err : Bool
deriving DecidableEq, Repr

/-- `SF32(op, a, b)`, written from the op code alone (10_state.md R16). -/
def sf32 (c : Config) (r : Request) : Except Fault Response :=
  if r.op = 0b00#2 then (fadd c r.a r.b).map fun y => { y := y, err := errNone }
  else if r.op = 0b01#2 then (fmul c r.a r.b).map fun y => { y := y, err := errNone }
  else if r.op = 0b10#2 then (fdiv c r.a r.b).map fun y => { y := y, err := errNone }
  else .ok { y := 0#32, err := errReserved }

/-- One whole transaction in one atomic step: the request is captured, its response is in `Y` and
`ERR`, and the host has taken it (10_state.md R15, R18, R19). The pins are left to the caller. -/
def State.transact (r : Request) (s : State) : Host.Outcome State Fault Refusal :=
  match sf32 s.config r with
  | .error f => .fault f
  | .ok rsp =>
    .next { s with op := r.op, a := r.a, b := r.b, y := rsp.y, err := rsp.err, state := .idle, cnt := 0 }

/-- Transactions one after the other, in the host's order (20_memory.md R35). -/
def State.transactAll : List Request → State → Host.Outcome State Fault Refusal
  | [], s => .next s
  | r :: rs, s =>
    match s.transact r with
    | .next t => t.transactAll rs
    | .fault f => .fault f
    | .refused x => .refused x

/-- The pins of a host that offers a request. -/
def Pins.offer (r : Request) : Pins where
  rst := false
  reqValid := true
  reqOp := r.op
  reqA := r.a
  reqB := r.b
  rspReady := false

/-- The pins of a host that takes a response. -/
def Pins.take : Pins := { Pins.quiet with rspReady := true }

/-- What a host drives for one transaction: it offers the request, waits `LATENCY` edges and takes the
response (70_reset_and_hazards.md R88, R89). -/
def hostDrive (latency : Nat) (r : Request) : List Pins :=
  Pins.offer r :: (List.replicate latency Pins.quiet ++ [Pins.take])

/-- What a host drives for transactions one after the other. -/
def hostDriveAll (latency : Nat) (rs : List Request) : List Pins :=
  rs.flatMap (hostDrive latency)

end Sys2Proof.Machine
end

