-- ==== Sys2Proof/Machine/HostProgram.lean ====
section
/-! DEFINITION. The host's notation: assembler statements, the pseudo-instruction FSUB, decimal literals, host
variables, and the text form of a request (30_encoding.md R38, R44). The core sees only the requests. -/

namespace Sys2Proof.Machine

/-- The operations an assembler line may name; FSUB is a pseudo-instruction (30_encoding.md R44). -/
inductive AsmOp where
  | fadd
  | fmul
  | fdiv
  | fsub
deriving DecidableEq, Repr

/-- A source operand of an assembler line (30_encoding.md R44). -/
inductive Source where
  /-- A pattern literal `0xHHHHHHHH`. -/
  | pattern (w : Word)
  /-- A decimal literal: `digits / 10^places`, negated if `neg`. -/
  | decimal (neg : Bool) (digits places : Nat)
  /-- A host variable that holds an earlier response's `y`. -/
  | var (name : String)
deriving DecidableEq, Repr

/-- One line of a host program. -/
inductive HostLine where
  /-- `<dest> = <op> <src1>, <src2>` (30_encoding.md R44). -/
  | asm (dest : String) (op : AsmOp) (src1 src2 : Source)
  /-- A request word the host writes directly, with no assembler syntax (95_test_vectors.md 5.4). -/
  | cmd (dest : String) (w : CmdWord)
deriving DecidableEq, Repr

/-- Why a host program stops: the assembler refuses a line, or a model fault. -/
inductive HostError where
  | unboundVariable (name : String)
  /-- A decimal literal that is no normal binary32 value exactly (30_encoding.md R44). -/
  | inexactDecimal
  | core (f : Fault)
  | refused (r : Refusal)
deriving DecidableEq, Repr

/-- The host's variables, the newest binding first. -/
abbrev Env := List (String × Word)

/-- The pattern of a decimal literal, if it is a normal binary32 value exactly: the exponent field `e`
and significand `M` with `digits / 10^places = M * 2^(e - 150)` (30_encoding.md R44). -/
def decimalPattern (neg : Bool) (digits places : Nat) : Option Word :=
  (List.range 254).findSome? fun k =>
    let e : Nat := k + 1
    let num : Nat := digits * 2 ^ 150
    let den : Nat := 10 ^ places * 2 ^ e
    if num % den = 0 ∧ 2 ^ 23 ≤ num / den ∧ num / den < 2 ^ 24 then some (pack neg e (num / den))
    else none

/-- The pattern a source operand stands for. -/
def Source.value (env : Env) : Source → Except HostError Word
  | .pattern w => .ok w
  | .decimal neg digits places =>
    match decimalPattern neg digits places with
    | some w => .ok w
    | none => .error .inexactDecimal
  | .var name =>
    match env.lookup name with
    | some w => .ok w
    | none => .error (.unboundVariable name)

/-- The request of an assembler operation; FSUB is FADD with the second operand's sign bit flipped by
the host (30_encoding.md R44). -/
def AsmOp.request (o : AsmOp) (a b : Word) : Request :=
  match o with
  | .fadd => { op := 0b00#2, a := a, b := b }
  | .fmul => { op := 0b01#2, a := a, b := b }
  | .fdiv => { op := 0b10#2, a := a, b := b }
  | .fsub => { op := 0b00#2, a := a, b := b ^^^ 0x80000000#32 }

/-- The request a line sends, given the host's variables. -/
def HostLine.request (env : Env) : HostLine → Except HostError Request
  | .asm _ op src1 src2 =>
    match src1.value env, src2.value env with
    | .ok a, .ok b => .ok (op.request a b)
    | .error e, _ => .error e
    | .ok _, .error e => .error e
  | .cmd _ w => .ok (requestOfCmd w)

/-- The host variable a line binds; the core has no destination register (30_encoding.md R44). -/
def HostLine.dest : HostLine → String
  | .asm dest _ _ _ => dest
  | .cmd dest _ => dest

/-- One line: the host sends the request, waits for its response and binds the destination to `y`
(70_reset_and_hazards.md R88). -/
def HostLine.run (l : HostLine) (env : Env) (s : State) : Except HostError (Env × State) :=
  match l.request env with
  | .error e => .error e
  | .ok r =>
    match s.transact r with
    | .next t => .ok ((l.dest, t.y) :: env, t)
    | .fault f => .error (.core f)
    | .refused x => .error (.refused x)

/-- A host program, line by line (95_test_vectors.md section 5). -/
def runProgram : List HostLine → Env → State → Except HostError (Env × State)
  | [], env, s => .ok (env, s)
  | l :: ls, env, s =>
    match l.run env s with
    | .error e => .error e
    | .ok (env', t) => runProgram ls env' t

/-- The hex digit of a number below 16. -/
def hexDigit (n : Nat) : Char := "0123456789ABCDEF".toList.getD n '0'

/-- The hex digits of the low `n` nibbles of a number, the most significant first. -/
def hexText : Nat → Nat → List Char
  | 0, _ => []
  | n + 1, v => hexDigit (v / 16 ^ n % 16) :: hexText n v

/-- The text form of a request, `op:AAAAAAAA:BBBBBBBB` (30_encoding.md R38). -/
def cmdText (r : Request) : List Char :=
  hexDigit (r.op.toNat / 2) :: hexDigit (r.op.toNat % 2) :: ':' ::
    (hexText 8 r.a.toNat ++ ':' :: hexText 8 r.b.toNat)

end Sys2Proof.Machine
end

