-- ==== Sys2Proof/Machine/Reference.lean ====
section
/-! DEFINITION. What the operators are compared with: exact values of patterns, round-to-nearest-even on exact
fractions, and the IEEE-754 binary32 result. Nothing here is used by the machine. -/

namespace Sys2Proof.Machine

/-- `n / d` rounded to the nearest natural number, ties to the even one. -/
def nearestEven (n d : Nat) : Nat :=
  if 2 * (n % d) > d ∨ (2 * (n % d) = d ∧ n / d % 2 = 1) then n / d + 1 else n / d

/-- A significand of at most `2^24`, with its exponent, as a pattern: `2^24` is one more binade. -/
def packRounded (s : Bool) (e : Int) (M : Nat) : Word :=
  if M = 2 ^ 24 then pack s (e + 1) (2 ^ 23) else pack s e M

/-- The exact magnitude `n * 2^x`, rounded once to 24 bits and packed with the exponent field that `x`
gives: `x = e - 150` for a significand with exponent field `e`. -/
def roundExact (s : Bool) (n : Nat) (e : Int) : Word :=
  packRounded s (e + (Nat.log2 n : Int) - 23) (nearestEven (n * 2 ^ 23) (2 ^ Nat.log2 n))

/-- A pattern's significand with its sign, in units of `2^(lo - 150)` for an exponent field `lo` that is
not above its own. -/
def signedUnits (w : Word) (lo : Nat) : Int :=
  let u := unpack w
  (if u.s then -1 else 1) * ((2 ^ 23 + u.f.toNat : Nat) : Int) * 2 ^ (u.e.toNat - lo)

/-- The exact sum of two patterns' working values, in units of `2^(min ea eb - 150)`. -/
def exactSum (a b : Word) : Int :=
  let lo := min (unpack a).e.toNat (unpack b).e.toNat
  signedUnits a lo + signedUnits b lo

/-- The operand pairs on which `NORM_COLLAPSE_SHIFT` matters: the exponent fields differ by one and the
exact sum is one unit (41_add.md R57). -/
abbrev CollapsePair (a b : Word) : Prop :=
  (exactSum a b).natAbs = 1 ∧ (unpack a).e ≠ (unpack b).e

/-- The exact sum of the working values, rounded once (41_add.md R63), but for the zero sum and, under
`NORM_COLLAPSE_SHIFT = 23`, the pairs of R57. -/
def addReference (limit : CollapseShift) (a b : Word) : Word :=
  let S := exactSum a b
  if S = 0 ∨ (limit = .source23 ∧ CollapsePair a b) then 0#32
  else roundExact (decide (S < 0)) S.natAbs (min (unpack a).e.toNat (unpack b).e.toNat : Nat)

/-- The exact product of the working values, rounded once (42_multiply.md R70). -/
def mulReference (a b : Word) : Word :=
  let ua := unpack a
  let ub := unpack b
  roundExact (ua.s ^^ ub.s) ((2 ^ 23 + ua.f.toNat) * (2 ^ 23 + ub.f.toNat))
    ((ua.e.toNat : Int) + ub.e.toNat - 150)

/-- The exact quotient of the working values, rounded once (43_divide.md R73): the quotient of the
significands lies in `(1/2, 2)`. -/
def divReference (a b : Word) : Word :=
  let ua := unpack a
  let ub := unpack b
  let D : Nat := 2 ^ 23 + ua.f.toNat
  let V : Nat := 2 ^ 23 + ub.f.toNat
  let e : Int := (ua.e.toNat : Int) - ub.e.toNat + 127
  if V ≤ D then packRounded (ua.s ^^ ub.s) e (nearestEven (D * 2 ^ 23) V)
  else packRounded (ua.s ^^ ub.s) (e - 1) (nearestEven (D * 2 ^ 24) V)

/-- The working value of a pattern: the hidden bit is always inserted (00_scope.md R13). -/
def workingValue (w : Word) : ℚ :=
  let u := unpack w
  (if u.s then -1 else 1) * (2 : ℚ) ^ ((u.e.toNat : ℤ) - 127) * (2 ^ 23 + u.f.toNat) / 2 ^ 23

/-- A pattern that IEEE 754 reads as a normal number: exponent field 1..254 (00_scope.md R13). -/
abbrev NormalPattern (w : Word) : Prop := 1 ≤ (unpack w).e.toNat ∧ (unpack w).e.toNat ≤ 254

/-- A pattern that IEEE 754 reads as a finite number. -/
abbrev FinitePattern (w : Word) : Prop := (unpack w).e.toNat ≤ 254

/-- The IEEE-754 binary32 value of a finite pattern: no hidden bit for exponent field 0. -/
def ieeeValue (w : Word) : ℚ :=
  let u := unpack w
  if u.e = 0#8 then (if u.s then -1 else 1) * (u.f.toNat : ℚ) / 2 ^ 149 else workingValue w

/-- The normal pattern `w` is the IEEE-754 binary32 round-to-nearest-even result for the exact value
`q`: `q` is below the overflow threshold, no finite pattern is nearer, and `w` is even if another one
is as near. -/
def IeeeRounds (q : ℚ) (w : Word) : Prop :=
  NormalPattern w ∧ |q| < 2 ^ 128 - 2 ^ 103 ∧
    ∀ z : Word, FinitePattern z →
      |q - ieeeValue w| ≤ |q - ieeeValue z| ∧
      (|q - ieeeValue w| = |q - ieeeValue z| → z = w ∨ w.getLsbD 0 = false)

end Sys2Proof.Machine
end

