-- ==== Sys2Proof/Safety.lean ====
section
/-! DEFINITION. What a safe run is, and the invariant that every step keeps. -/

namespace Sys2Proof.Machine

/-- The states a core that was reset once can be in (70_reset_and_hazards.md R84, R85). -/
structure State.Inv (s : State) : Prop where
  /-- The core was built with legal parameters (00_scope.md R11). -/
  configLegal : s.config.legal = true
  /-- `CNT` fits its register (10_state.md R20). -/
  cntFits : s.cnt < 2 ^ cntWidth s.config
  /-- `CNT` is 0 between transactions. -/
  idleCnt : s.state = .idle → s.cnt = 0
  /-- While busy, `CNT` counts the edges left to completion. -/
  busyCnt : s.state = .busy → 1 ≤ s.cnt ∧ s.cnt ≤ s.config.latency
  /-- `CNT` is 0 once the response is there. -/
  doneCnt : s.state = .done → s.cnt = 0
  /-- While the response is valid it is the response to the request in `OP`, `A` and `B`
  (10_state.md R19). -/
  doneResponse : s.state = .done → sf32 s.config s.request = .ok { y := s.y, err := s.err }
  /-- An error response carries the pattern `0x00000000` (60_exceptions.md R77). -/
  errZero : s.err = true → s.y = 0#32

/-- A step that neither faults nor is refused. -/
def SafeStep (s : State) : Prop := ∃ t, step s = .next t

/-- The machine after `k` steps is `t`, with no fault and no refusal on the way. -/
def RunsTo (k : Nat) (s t : State) : Prop := Host.Core.run Sys2Proof.core k s = .next t

/-- The coming `k` edges hold no reset. -/
def NoReset (k : Nat) (s : State) : Prop := ∀ p ∈ s.drive.take k, p.rst = false

end Sys2Proof.Machine
end

