-- ==== Sys2Proof/Certificates/Slice0/Obligations.lean ====
section
/-! DEFINITION. The statements for the provers. Each docstring names the rule of spec/ or the log entry it
rests on. -/

open Sys2Proof Sys2Proof.Machine

/-! ### Encoding -/

/-- 30_encoding.md R39. -/
def Obligations.OpFieldSelectsTheInstruction : Prop :=
  ∀ w : CmdWord,
    (cmdOp w = 0b00#2 → decodeCmd w = .fadd (cmdA w) (cmdB w)) ∧
    (cmdOp w = 0b01#2 → decodeCmd w = .fmul (cmdA w) (cmdB w)) ∧
    (cmdOp w = 0b10#2 → decodeCmd w = .fdiv (cmdA w) (cmdB w)) ∧
    (cmdOp w = 0b11#2 → decodeCmd w = .reserved (cmdA w) (cmdB w))

/-- The mask and match columns of opcode_table.json, with the field places of 30_encoding.md R38. -/
def Obligations.OpcodeTableRowsDecode : Prop :=
  ∀ w : CmdWord,
    (w &&& 0x30000000000000000#66 = 0x00000000000000000#66 →
      decodeCmd w = .fadd (w.extractLsb' 32 32) (w.extractLsb' 0 32)) ∧
    (w &&& 0x30000000000000000#66 = 0x10000000000000000#66 →
      decodeCmd w = .fmul (w.extractLsb' 32 32) (w.extractLsb' 0 32)) ∧
    (w &&& 0x30000000000000000#66 = 0x20000000000000000#66 →
      decodeCmd w = .fdiv (w.extractLsb' 32 32) (w.extractLsb' 0 32)) ∧
    (w &&& 0x30000000000000000#66 = 0x30000000000000000#66 →
      decodeCmd w = .reserved (w.extractLsb' 32 32) (w.extractLsb' 0 32))

/-- The first four clauses are words written out from 30_encoding.md R38, R39 and the text forms of
95_test_vectors.md. The fifth, that a number with bit 66 set decodes to nothing, is the model's choice
(log entry 4). -/
def Obligations.SampleRequestWordsDecode : Prop :=
  decodeTableWord 72 0x03FC0000040200000 = some (.fadd 0x3FC00000#32 0x40200000#32) ∧
  decodeTableWord 72 0x1404000003F000000 = some (.fmul 0x40400000#32 0x3F000000#32) ∧
  decodeTableWord 72 0x24120000040800000 = some (.fdiv 0x41200000#32 0x40800000#32) ∧
  decodeTableWord 72 0x3123456789ABCDEF0 = some (.reserved 0x12345678#32 0x9ABCDEF0#32) ∧
  decodeTableWord 72 0x40000000000000000 = none

/-- Request words and instructions stand for each other one to one (30_encoding.md R38, R43). -/
def Obligations.RequestWordsAndInstructionsCorrespond : Prop :=
  (∀ i : Instr, decodeCmd (encode i) = i) ∧ (∀ w : CmdWord, encode (decodeCmd w) = w)

/-- Nine-byte frames and instructions stand for each other, whatever bytes follow. The frame is the
model's choice (log entry 4). -/
def Obligations.FramesDecodeToWhatWasEncoded : Prop :=
  (∀ (i : Instr) (rest : List Byte), decodeBytes (encodeBytes i ++ rest) = .ok (i, rest)) ∧
  (∀ (bytes rest : List Byte) (i : Instr),
    decodeBytes bytes = .ok (i, rest) → bytes = encodeBytes i ++ rest)

/-! ### What each instruction answers -/

/-- FADD answers the exact sum of the working values, rounded once, but for the zero sum and the pairs of
R57 (41_add.md R56, R57, R63, R64); it writes `Y`, `ERR`, `CNT` and `STATE` and nothing else. -/
def Obligations.FaddAnswersTheRoundedSum : Prop :=
  ∀ (a b : Word) (s : State),
    exec (.fadd a b) s =
      .next { s with
        y := addReference s.config.collapseShift a b, err := false, state := .done, cnt := 0 }

/-- FMUL answers the exact product of the working values, rounded once (42_multiply.md R65, R70). -/
def Obligations.FmulAnswersTheRoundedProduct : Prop :=
  ∀ (a b : Word) (s : State),
    exec (.fmul a b) s =
      .next { s with y := mulReference a b, err := false, state := .done, cnt := 0 }

/-- FDIV answers the exact quotient of the working values, rounded once, for every iteration count of at
least 27 (43_divide.md R71, R73). -/
def Obligations.FdivAnswersTheRoundedQuotient : Prop :=
  ∀ (a b : Word) (s : State), 27 ≤ s.config.divIters →
    exec (.fdiv a b) s =
      .next { s with y := divReference a b, err := false, state := .done, cnt := 0 }

/-- 60_exceptions.md R77: the reserved op code is accepted like any other, completes after the same
latency with its fixed response, and no other request answers with an error. -/
def Obligations.ReservedOpAnswersTheErrorResponse : Prop :=
  (∀ (a b : Word) (s : State),
    exec (.reserved a b) s =
      .next { s with y := 0x00000000#32, err := true, state := .done, cnt := 0 }) ∧
  (∀ s : State, s.pins.rst = false → s.state = .idle → s.pins.reqValid = true →
    step s = .next { s with
      op := s.pins.reqOp, a := s.pins.reqA, b := s.pins.reqB, state := .busy,
      cnt := s.config.latency, drive := s.drive.tail }) ∧
  (∀ (i : Instr) (s t : State), i.op ≠ 0b11#2 → exec i s = .next t → t.err = false)

/-- The frame of every instruction: its completion leaves the request registers, the parameters and the
pins as they were (10_state.md R18, R19, R24). -/
def Obligations.CompletionLeavesRequestRegisters : Prop :=
  ∀ (i : Instr) (s t : State), exec i s = .next t →
    t.op = s.op ∧ t.a = s.a ∧ t.b = s.b ∧ t.config = s.config ∧ t.drive = s.drive

/-- Every request completes, on all operands and in every state (60_exceptions.md R75). -/
def Obligations.EveryRequestCompletes : Prop :=
  ∀ (i : Instr) (s : State), ∃ y e,
    exec i s = .next { s with y := y, err := e, state := .done, cnt := 0 }

/-! ### The datapath primitives -/

/-- 40_primitives.md R46. -/
def Obligations.BitScanImplementationsAgree : Prop :=
  hsb 0 = .error .hsbOfZero ∧
  (∀ v : Nat, 0 < v → v < 2 ^ 32 → ∃ h, hsb v = .ok h ∧ h ≤ 31 ∧
    v.testBit h = true ∧ (∀ i, v.testBit i = true → i ≤ h) ∧
    h = 31 - clz 32 v ∧ h = hsbLoop 32 v) ∧
  (∀ (u : BitVec 5) (w : Word), (bitScanUnit u w).zero = decide (w = 0#32) ∧
    (w ≠ 0#32 → hsb w.toNat = .ok (bitScanUnit u w).index.toNat))

/-- 60_exceptions.md R78: where the model faults are, and that no request reaches one. -/
def Obligations.ModelFaultsAreReachedByNoRequest : Prop :=
  (∀ v : Nat, hsb v = .error .hsbOfZero ↔ v = 0) ∧
  (∀ N D V : Nat, longdiv N D V = .error .divisorZero ↔ V = 0) ∧
  (∀ (c : Config) (r : Request), ∃ rsp, sf32 c r = .ok rsp)

/-- 40_primitives.md R47. -/
def Obligations.NormalizeGivesAWindow : Prop :=
  (∀ (limit : CollapseShift) (m w : Nat) (sh : Int), m < 2 ^ 32 →
    normalize limit m = .ok (.normal w sh) →
      2 ^ 26 ≤ w ∧ w < 2 ^ 27 ∧ hsb m = .ok (26 - sh).toNat ∧ sh ≤ 26 ∧ sh ≤ collapseLimit limit ∧
      (0 < sh → w = m * 2 ^ sh.toNat) ∧ (sh ≤ 0 → w = shrSticky m (-sh).toNat)) ∧
  (∀ m : Nat, normalize .source23 m = .ok .collapsed ↔ m ≤ 7) ∧
  (∀ m : Nat, normalize .ieee26 m = .ok .collapsed ↔ m = 0)

/-- 40_primitives.md R48. -/
def Obligations.RoundingIsToNearestEven : Prop :=
  (∀ w : Nat, 2 ^ 26 ≤ w → w < 2 ^ 27 →
    roundEven w = nearestEven w 8 ∧ 2 ^ 23 ≤ roundEven w ∧ roundEven w ≤ 2 ^ 24 ∧
    (roundEven w = 2 ^ 24 → w >>> 3 = 2 ^ 24 - 1)) ∧
  (∀ w v : Nat, w >>> 2 = v >>> 2 → (w % 4 = 0 ↔ v % 4 = 0) → roundEven w = roundEven v)

/-- 40_primitives.md R49. -/
def Obligations.StickyShiftCollectsDroppedBits : Prop :=
  (∀ v : Nat, shrSticky v 0 = v) ∧
  (∀ v k i : Nat, 1 ≤ k → 1 ≤ i → (shrSticky v k).testBit i = v.testBit (i + k)) ∧
  (∀ v k : Nat, 1 ≤ k → ((shrSticky v k).testBit 0 = true ↔ ∃ j, j ≤ k ∧ v.testBit j = true)) ∧
  (∀ v k : Nat, v < 2 ^ k → shrSticky v k = if v = 0 then 0 else 1)

/-- 40_primitives.md R50. -/
def Obligations.AlignmentIsTheStickyShift : Prop :=
  (∀ v k : Nat, align v k = shrSticky v k) ∧
  (∀ v j k : Nat, v < 2 ^ j → j ≤ k → align v k = align v j)

/-- 40_primitives.md R51. -/
def Obligations.WideProductIsExact : Prop :=
  (∀ a b : Nat, a < 2 ^ 32 → b < 2 ^ 32 → mulwide a b = .ok (a * b) ∧ a * b < 2 ^ 64) ∧
  (∀ a : Nat, mulwide a 0 = .ok 0)

/-- 40_primitives.md R52. -/
def Obligations.LongDivisionIsExact : Prop :=
  (∀ N D V : Nat, 48 ≤ N → 2 ^ 23 ≤ D → D < 2 ^ 24 → 2 ^ 23 ≤ V → V < 2 ^ 24 →
    ∃ r, longdiv N D V = .ok r ∧ r.q = D * 2 ^ (N - 1) / V ∧
      r.st = (if D * 2 ^ (N - 1) % V ≠ 0 then 1 else 0) ∧
      2 ^ (N - 2) ≤ r.q ∧ r.q < 2 ^ N) ∧
  (∀ N D : Nat, longdiv N D 0 = .error .divisorZero)

/-- 40_primitives.md R53. -/
def Obligations.FinishRoundsOnce : Prop :=
  ∀ (limit : CollapseShift) (m : Nat) (e : Int), m < 2 ^ 32 →
    (normalize limit m = .ok .collapsed → finish limit m e = .ok .collapsed) ∧
    (∀ w sh, normalize limit m = .ok (.normal w sh) →
      ∃ p, finish limit m e = .ok (.normal p) ∧ p.w1 = w ∧ p.sh1 = sh ∧ p.r1 = roundEven w ∧
        (p.sh2 = 0 ∨ p.sh2 = -1) ∧ (p.sh2 = -1 ↔ p.r1 = 2 ^ 24) ∧
        (p.r1 = 2 ^ 24 → p.r2 = 2 ^ 23 ∧ p.e2 = e - sh + 1) ∧
        (p.r1 ≠ 2 ^ 24 → p.r2 = p.r1 ∧ p.e2 = e - sh) ∧
        2 ^ 23 ≤ p.r2 ∧ p.r2 < 2 ^ 24)

/-- 40_primitives.md R45, with 30_encoding.md R40 as its inverse. -/
def Obligations.PackingWritesTheThreeFields : Prop :=
  (∀ (s : Bool) (e : Int) (M : Nat), 2 ^ 23 ≤ M → M < 2 ^ 24 →
    (unpack (pack s e M)).s = s ∧ (((unpack (pack s e M)).e.toNat : Nat) : Int) = e % 256 ∧
    sig (unpack (pack s e M)).f = M) ∧
  (∀ w : Word, pack (unpack w).s (unpack w).e.toNat (sig (unpack w).f) = w)

/-- The table and the consequences of 40_primitives.md R55. -/
def Obligations.IntermediatesStayInRange : Prop :=
  ∀ (a b : Word) (limit : CollapseShift) (N : Nat), 48 ≤ N →
    ((unpack a).s = (unpack b).s →
      2 ^ 26 ≤ (addPath a b).m ∧ (addPath a b).m < 2 ^ 28 ∧
      ∃ p, finish limit (addPath a b).m (addPath a b).E = .ok (.normal p) ∧
        (p.sh1 = -1 ∨ p.sh1 = 0) ∧ (p.sh2 = -1 ∨ p.sh2 = 0) ∧ ¬(p.sh1 = -1 ∧ p.sh2 = -1) ∧
        1 ≤ p.e2 ∧ p.e2 ≤ 256) ∧
    ((unpack a).s ≠ (unpack b).s →
      (addPath a b).m < 2 ^ 27 ∧
      ∀ p, finish limit (addPath a b).m (addPath a b).E = .ok (.normal p) →
        0 ≤ p.sh1 ∧ p.sh1 ≤ collapseLimit limit ∧ (p.sh2 = -1 ∨ p.sh2 = 0) ∧
        (p.sh2 = -1 → 1 ≤ p.sh1) ∧ -23 ≤ p.e2 ∧ p.e2 ≤ 255) ∧
    (addPath a b).E ≤ 255 ∧
    (∃ q, mulPath a b = .ok q ∧ 2 ^ 26 ≤ q.W ∧ q.W < 2 ^ 28 ∧ -127 ≤ q.E ∧ q.E ≤ 383 ∧
      ∃ p, finish limit q.W q.E = .ok (.normal p) ∧
        (p.sh1 = -1 ∨ p.sh1 = 0) ∧ (p.sh2 = -1 ∨ p.sh2 = 0) ∧ ¬(p.sh1 = -1 ∧ p.sh2 = -1) ∧
        -127 ≤ p.e2 ∧ p.e2 ≤ 384) ∧
    (∃ q, divPath N a b = .ok q ∧ 2 ^ 25 ≤ q.W ∧ q.W < 2 ^ 27 ∧ -128 ≤ q.E ∧ q.E ≤ 382 ∧
      ∃ p, finish limit q.W q.E = .ok (.normal p) ∧
        (p.sh1 = 0 ∨ p.sh1 = 1) ∧ p.sh2 = 0 ∧ -129 ≤ p.e2 ∧ p.e2 ≤ 382)

/-! ### FADD -/

/-- When FADD collapses, and what it then returns (41_add.md R57). The pairs are those with a larger
exponent field `e` of 1 to 255: R57's count of 1016 leaves out `e = 255` (log entry 10). -/
def Obligations.FaddCollapsesExactlyOnTheNamedPairs : Prop :=
  ∀ a b : Word,
    ((addPath a b).m < 8 → (addPath a b).m = 0 ∨ (addPath a b).m = 4) ∧
    ((addPath a b).m = 0 ↔ b = a ^^^ 0x80000000#32) ∧
    ((addPath a b).m = 4 ↔ (unpack a).s ≠ (unpack b).s ∧
      (((unpack a).e.toNat = (unpack b).e.toNat + 1 ∧
          (unpack a).f = 0#23 ∧ (unpack b).f = 0x7FFFFF#23) ∨
        ((unpack b).e.toNat = (unpack a).e.toNat + 1 ∧
          (unpack b).f = 0#23 ∧ (unpack a).f = 0x7FFFFF#23))) ∧
    ((addPath a b).m = 4 → ∀ c : Config,
      (c.collapseShift = .source23 → fadd c a b = .ok 0x00000000#32) ∧
      (c.collapseShift = .ieee26 →
        fadd c a b = .ok (pack
          (if (unpack b).e.toNat < (unpack a).e.toNat then (unpack a).s else (unpack b).s)
          ((max (unpack a).e.toNat (unpack b).e.toNat : Int) - 24) (2 ^ 23))))

/-- 41_add.md R58. -/
def Obligations.FaddCancelsToCanonicalZero : Prop :=
  (∀ (c : Config) (x : Word), fadd c x (x ^^^ 0x80000000#32) = .ok 0x00000000#32) ∧
  (∀ s : Bool, result s .collapsed = 0x00000000#32) ∧
  (∀ (c : Config) (a b : Word), fadd c a b = .ok 0x80000000#32 →
    ∃ p, finish c.collapseShift (addPath a b).m (addPath a b).E = .ok (.normal p) ∧ p.e2 % 256 = 0) ∧
  fadd Config.defaults 0x00800000#32 0x80C00000#32 = .ok 0x80000000#32 ∧
  fadd Config.defaults 0x00000000#32 0x00000000#32 = .ok 0x00800000#32 ∧
  fadd Config.defaults 0x80000000#32 0x80000000#32 = .ok 0x80800000#32

/-- 41_add.md R59. -/
def Obligations.FaddIsCommutative : Prop :=
  ∀ (c : Config) (a b : Word), fadd c a b = fadd c b a

/-- 41_add.md R60. -/
def Obligations.FaddIgnoresAFarSmallerOperand : Prop :=
  (∀ (c : Config) (a b : Word), (unpack b).e.toNat + 26 ≤ (unpack a).e.toNat →
    align (wide (unpack b).f) ((unpack a).e.toNat - (unpack b).e.toNat) = 1 ∧ fadd c a b = .ok a) ∧
  (∀ (c : Config) (a b : Word), (unpack a).e.toNat + 26 ≤ (unpack b).e.toNat →
    align (wide (unpack a).f) ((unpack b).e.toNat - (unpack a).e.toNat) = 1 ∧ fadd c a b = .ok b) ∧
  fadd Config.defaults 0x3F800000#32 0xB3000001#32 = .ok 0x3F7FFFFF#32

/-- 41_add.md R61. -/
def Obligations.FaddOfAZeroPattern : Prop :=
  (∀ (c : Config) (a : Word), 25 ≤ (unpack a).e.toNat →
    fadd c a 0x00000000#32 = .ok a ∧ fadd c a 0x80000000#32 = .ok a) ∧
  (∀ (c : Config) (a : Word), (unpack a).e.toNat = 24 → (unpack a).f.getLsbD 0 = true →
    fadd c a 0x00000000#32 ≠ .ok a) ∧
  fadd Config.defaults 0x0C000001#32 0x00000000#32 = .ok 0x0C000002#32

/-! ### FMUL -/

/-- 42_multiply.md R66. -/
def Obligations.FmulShiftsAndCarry : Prop :=
  (∀ (limit : CollapseShift) (a b : Word), ∃ q p, mulPath a b = .ok q ∧
    finish limit q.W q.E = .ok (.normal p) ∧
    (2 ^ 47 ≤ q.P → p.sh1 = -1) ∧ (q.P < 2 ^ 47 → p.sh1 = 0) ∧
    (p.sh2 = -1 ↔ p.r1 = 2 ^ 24) ∧ (p.sh2 = -1 → p.sh1 = 0 ∧ 0x7FFFFFC ≤ q.W)) ∧
  (mulPath 0x3F800001#32 0x3FFFFFFE#32 =
    .ok { P := 0x7FFFFFFFFFFE, W := 0x7FFFFFF, E := 127, s := false }) ∧
  fmul Config.defaults 0x3F800001#32 0x3FFFFFFE#32 = .ok 0x40000000#32 ∧
  (mulPath 0x4B7FFFFF#32 0x40000000#32 =
    .ok { P := 0x7FFFFF800000, W := 0x7FFFFF8, E := 151, s := false }) ∧
  fmul Config.defaults 0x4B7FFFFF#32 0x40000000#32 = .ok 0x4BFFFFFF#32

/-- 42_multiply.md R69. -/
def Obligations.FmulIdentityCommutativityAndSign : Prop :=
  (∀ (c : Config) (a : Word),
    fmul c a 0x3F800000#32 = .ok a ∧ fmul c 0x3F800000#32 a = .ok a) ∧
  (∀ (c : Config) (a b : Word), fmul c a b = fmul c b a) ∧
  (∀ (c : Config) (a b y : Word), fmul c a b = .ok y →
    y.getLsbD 31 = (a.getLsbD 31 ^^ b.getLsbD 31))

/-! ### FDIV -/

/-- The window of FDIV is the same for every iteration count of at least 27 (43_divide.md R71). -/
def Obligations.FdivWindowIgnoresTheIterationCount : Prop :=
  ∀ (N : Nat) (a b : Word), 27 ≤ N → ∃ q, divPath N a b = .ok q ∧
    q.W = (sig (unpack a).f * 2 ^ 26 / sig (unpack b).f |||
      (if sig (unpack a).f * 2 ^ 26 % sig (unpack b).f ≠ 0 then 1 else 0))

/-- 43_divide.md R72. -/
def Obligations.FdivShiftsAndNeverCarries : Prop :=
  (∀ (limit : CollapseShift) (N : Nat) (a b : Word), 27 ≤ N → ∃ q p, divPath N a b = .ok q ∧
    2 ^ 25 ≤ q.W ∧ finish limit q.W q.E = .ok (.normal p) ∧
    (sig (unpack b).f ≤ sig (unpack a).f → p.sh1 = 0) ∧
    (sig (unpack a).f < sig (unpack b).f → p.sh1 = 1 ∧ p.w1 % 2 = 0) ∧ p.sh2 = 0) ∧
  (divPath 48 0x3F800000#32 0x40400000#32 =
    .ok { Q := 0x555555555555, st := 1, W := 0x2AAAAAB, E := 126, s := false }) ∧
  finish .source23 0x2AAAAAB 126 = .ok (.normal
    { w1 := 0x5555556, sh1 := 1, r1 := 0xAAAAAB, w2 := 0x5555558, sh2 := 0, r2 := 0xAAAAAB,
      e2 := 125 }) ∧
  fdiv Config.defaults 0x3F800000#32 0x40400000#32 = .ok 0x3EAAAAAB#32

/-- 43_divide.md R74: zero divisor patterns are numbers, 1.0 is the right identity, the sign is the XOR. -/
def Obligations.FdivZeroDivisorIdentityAndSign : Prop :=
  (∀ (c : Config) (a : Word), 27 ≤ c.divIters → fdiv c a 0x3F800000#32 = .ok a) ∧
  (∀ (c : Config) (a b y : Word), 27 ≤ c.divIters → fdiv c a b = .ok y →
    y.getLsbD 31 = (a.getLsbD 31 ^^ b.getLsbD 31)) ∧
  (∀ (c : Config) (a b : Word), (unpack b).e = 0#8 → 2 ^ 23 ≤ sig (unpack b).f ∧
    ∃ y, fdiv c a b = .ok y) ∧
  fdiv Config.defaults 0x3F800000#32 0x00000000#32 = .ok 0x7F000000#32 ∧
  fdiv Config.defaults 0x40000000#32 0x00000000#32 = .ok 0x7F800000#32 ∧
  fdiv Config.defaults 0x3F800000#32 0x80000000#32 = .ok 0xFF000000#32 ∧
  fdiv Config.defaults 0x00000000#32 0x3F800000#32 = .ok 0x00000000#32

/-! ### Agreement with IEEE 754 -/

/-- 41_add.md R63. -/
def Obligations.FaddAgreesWithIeee : Prop :=
  ∀ (c : Config) (a b : Word), NormalPattern a → NormalPattern b →
    (c.collapseShift = .ieee26 ∨ (addPath a b).m ≠ 4) →
    (∀ w : Word, IeeeRounds (ieeeValue a + ieeeValue b) w → fadd c a b = .ok w) ∧
    (ieeeValue a + ieeeValue b = 0 → fadd c a b = .ok 0x00000000#32)

/-- FMUL is the IEEE product where the exact product is not below the normal range. The last premise is
the model's: without it the claim of 42_multiply.md R70 fails (log entry 11). -/
def Obligations.FmulAgreesWithIeee : Prop :=
  ∀ (c : Config) (a b w : Word), NormalPattern a → NormalPattern b →
    IeeeRounds (ieeeValue a * ieeeValue b) w → 1 / 2 ^ 126 ≤ |ieeeValue a * ieeeValue b| →
    fmul c a b = .ok w

/-- FDIV is the IEEE quotient where the exact quotient is not below the normal range. The last premise is
the model's: without it the claim of 43_divide.md R73 fails (log entry 11). -/
def Obligations.FdivAgreesWithIeee : Prop :=
  ∀ (c : Config) (a b w : Word), 27 ≤ c.divIters → NormalPattern a → NormalPattern b →
    IeeeRounds (ieeeValue a / ieeeValue b) w → 1 / 2 ^ 126 ≤ |ieeeValue a / ieeeValue b| →
    fdiv c a b = .ok w

/-- The first sentence of 42_multiply.md R70 as it stands. It is expected to FAIL, at
`0x00FFFFFF × 0x3F000000`: the exact product lies half a subnormal unit below `2^-126`, IEEE 754 rounds
it up to the normal number `2^-126`, and the core returns `0x007FFFFF` (log entry 11). -/
def Obligations.FmulAgreesWithIeeeAsR70Says : Prop :=
  ∀ (c : Config) (a b w : Word), NormalPattern a → NormalPattern b →
    IeeeRounds (ieeeValue a * ieeeValue b) w → fmul c a b = .ok w

/-- What FMUL gives where the product lies below the normal range and IEEE 754 rounds it up to a normal
number: that number, or, if the product is more than a quarter of a subnormal unit below `2^-126`, the
pattern one below it. Worked out from 42_multiply.md R65 (log entry 11). -/
def Obligations.FmulJustBelowTheNormalRange : Prop :=
  ∀ (c : Config) (a b w : Word), NormalPattern a → NormalPattern b →
    IeeeRounds (ieeeValue a * ieeeValue b) w → |ieeeValue a * ieeeValue b| < 1 / 2 ^ 126 →
    fmul c a b =
      .ok (if |ieeeValue a * ieeeValue b| < 1 / 2 ^ 126 - 1 / 2 ^ 151 then w - 1#32 else w)

/-- What FDIV gives where the quotient lies below the normal range and IEEE 754 rounds it up to a normal
number: the pattern one below that number, and the quotient is half a subnormal unit below `2^-126`.
Worked out from 43_divide.md R71 (log entry 11). -/
def Obligations.FdivJustBelowTheNormalRange : Prop :=
  ∀ (c : Config) (a b w : Word), 27 ≤ c.divIters → NormalPattern a → NormalPattern b →
    IeeeRounds (ieeeValue a / ieeeValue b) w → |ieeeValue a / ieeeValue b| < 1 / 2 ^ 126 →
    |ieeeValue a / ieeeValue b| = 1 / 2 ^ 126 - 1 / 2 ^ 150 ∧ fdiv c a b = .ok (w - 1#32)

/-! ### The handshake -/

/-- At the completing edge a step is the meaning of the instruction in `OP`, `A` and `B`, with the pins
moved on; `withFetchWord` puts a word there (70_reset_and_hazards.md R84, log entry 5). -/
def Obligations.StepRunsTheDecodedInstruction : Prop :=
  (∀ (s : State) (i : Instr), s.pins.rst = false → s.state = .busy → s.cnt = 1 →
    decodeCmd (cmdOfRequest s.request) = i → i.wellFormed = true →
    step s = exec i { s with drive := s.drive.tail }) ∧
  (∀ (s : State) (nbits w : Nat) (i : Instr), decodeTableWord nbits w = some i →
    step (s.withFetchWord nbits w) = exec i { s.withFetchWord nbits w with drive := s.drive })

/-- The edge table of 70_reset_and_hazards.md R84, without reset. -/
def Obligations.EdgesWithoutReset : Prop :=
  ∀ s : State, s.pins.rst = false →
    (s.state = .idle → s.pins.reqValid = true →
      step s = .next { s with
        op := s.pins.reqOp, a := s.pins.reqA, b := s.pins.reqB, cnt := s.config.latency,
        state := .busy, drive := s.drive.tail }) ∧
    (s.state = .idle → s.pins.reqValid = false → step s = .next { s with drive := s.drive.tail }) ∧
    (s.state = .busy → s.cnt = 1 → ∀ rsp, sf32 s.config s.request = .ok rsp →
      step s = .next { s with
        y := rsp.y, err := rsp.err, cnt := 0, state := .done, drive := s.drive.tail }) ∧
    (s.state = .busy → 2 ≤ s.cnt →
      step s = .next { s with cnt := s.cnt - 1, drive := s.drive.tail }) ∧
    (s.state = .done → s.pins.rspReady = true →
      step s = .next { s with state := .idle, drive := s.drive.tail }) ∧
    (s.state = .done → s.pins.rspReady = false → step s = .next { s with drive := s.drive.tail })

/-- 70_reset_and_hazards.md R85 and 10_state.md R29. -/
def Obligations.ResetEdgeSetsEveryRegister : Prop :=
  (∀ s : State, s.pins.rst = true →
    step s = .next { s with
      state := .idle, cnt := 0, y := 0x00000000#32, err := false, op := 0b00#2,
      a := 0x00000000#32, b := 0x00000000#32, drive := s.drive.tail }) ∧
  (State.reset.state = .idle ∧ State.reset.cnt = 0 ∧ State.reset.y = 0x00000000#32 ∧
    State.reset.err = false ∧ State.reset.op = 0b00#2 ∧ State.reset.a = 0x00000000#32 ∧
    State.reset.b = 0x00000000#32)

/-- 70_reset_and_hazards.md R86. -/
def Obligations.ReadyInTheFirstCycleAfterReset : Prop :=
  ∀ (s : State) (p q : Pins) (ps : List Pins), s.drive = p :: q :: ps → p.rst = true →
    q.rst = false →
    ∃ t, step s = .next t ∧ t.outputs.reqReady = true ∧ t.config = s.config ∧
      (q.reqValid = true → ∃ u, step t = .next u ∧ u.request = q.request ∧ u.state = .busy ∧
        u.config = s.config)

/-- No state faults or is refused at any edge (60_exceptions.md R75, R78). -/
def Obligations.NoEdgeStopsTheCore : Prop := ∀ s : State, SafeStep s

/-- 10_state.md R18 and R19: what writes the request and the response registers, and what shows them. -/
def Obligations.OnlyAcceptanceAndCompletionWriteRegisters : Prop :=
  ∀ s t : State, step s = .next t →
    (t.request = s.request ∨ s.pins.rst = true ∨
      (s.state = .idle ∧ s.pins.reqValid = true ∧ t.request = s.pins.request)) ∧
    ((t.y = s.y ∧ t.err = s.err) ∨ s.pins.rst = true ∨
      (s.state = .busy ∧ s.cnt = 1 ∧ sf32 s.config s.request = .ok { y := t.y, err := t.err })) ∧
    t.outputs.rspY = t.y ∧ t.outputs.rspErr = t.err ∧
    (∀ (op : OpCode) (a b : Word), { t with op := op, a := a, b := b }.outputs = t.outputs)

/-- The invariant of a core that was reset once holds after reset. -/
def Obligations.ResetMeetsTheInvariant : Prop := State.reset.Inv

/-- Every step keeps the invariant: a legal configuration, a latency count that matches `STATE` and fits
its register, and a response that is the response of the request held (10_state.md R19, R20). -/
def Obligations.EveryStepKeepsTheInvariant : Prop :=
  ∀ s t : State, s.Inv → step s = .next t → t.Inv

/-- The cycle-level protocol gives the transaction's response exactly `LATENCY` edges after the
acceptance edge, holds it until the host takes it, and is then idle with nothing else changed
(10_state.md R15, 70_reset_and_hazards.md R84). -/
def Obligations.ProtocolRefinesOneTransaction : Prop :=
  ∀ (s : State) (p q : Pins) (wait hold rest : List Pins) (rsp : Response),
    s.config.legal = true → s.state = .idle → s.drive = p :: (wait ++ hold ++ q :: rest) →
    p.rst = false → p.reqValid = true → wait.length = s.config.latency →
    (∀ x ∈ wait, x.rst = false) → (∀ x ∈ hold, x.rst = false ∧ x.rspReady = false) →
    q.rst = false → q.rspReady = true → sf32 s.config p.request = .ok rsp →
    (∀ k, 1 ≤ k → k ≤ s.config.latency → ∃ t, RunsTo k s t ∧
      t.outputs = { reqReady := false, rspValid := false, rspY := s.y, rspErr := s.err }) ∧
    (∀ k, k ≤ hold.length → ∃ t, RunsTo (1 + s.config.latency + k) s t ∧
      t.outputs = { reqReady := false, rspValid := true, rspY := rsp.y, rspErr := rsp.err }) ∧
    RunsTo (s.config.latency + hold.length + 2) s
      { s with
        op := p.reqOp, a := p.reqA, b := p.reqB, y := rsp.y, err := rsp.err, state := .idle,
        cnt := 0, drive := rest }

/-- A host that asks for requests one after the other gets from the cycle-level core exactly what the
transaction-level model gives, in order and in `LATENCY + 2` edges each (10_state.md R15, R16,
20_memory.md R35, 70_reset_and_hazards.md R89). -/
def Obligations.ProtocolRefinesEveryProgram : Prop :=
  ∀ (s : State) (rs : List Request), s.config.legal = true → s.state = .idle →
    ∃ t, s.transactAll rs = .next t ∧
      RunsTo ((s.config.latency + 2) * rs.length)
        { s with drive := hostDriveAll s.config.latency rs ++ s.drive } t

/-- 70_reset_and_hazards.md R89. -/
def Obligations.AcceptancesAreLatencyPlusTwoApart : Prop :=
  (∀ (s : State) (k : Nat), s.config.legal = true → s.state = .idle → s.pins.reqValid = true →
    1 ≤ k → k ≤ s.config.latency + 1 → NoReset k s →
    ∃ t, RunsTo k s t ∧ t.outputs.reqReady = false) ∧
  (∀ s : State, s.config.latency = 1 → s.state = .idle → 4 ≤ s.drive.length →
    (∀ p ∈ s.drive.take 4, p.rst = false ∧ p.reqValid = true ∧ p.rspReady = true) →
    ∃ t u, RunsTo 3 s t ∧ t.outputs.reqReady = true ∧ step t = .next u ∧ u.state = .busy ∧
      u.request = t.pins.request)

/-- 70_reset_and_hazards.md R92; the two cores are built with the same `NORM_COLLAPSE_SHIFT`. -/
def Obligations.ResponseDependsOnTheRequestAlone : Prop :=
  (∀ (c d : Config) (r : Request), c.legal = true → d.legal = true →
    c.collapseShift = d.collapseShift → sf32 c r = sf32 d r) ∧
  (∀ s t u v : State, s.config.legal = true → t.config.legal = true →
    s.config.collapseShift = t.config.collapseShift → s.pins.rst = false → t.pins.rst = false →
    s.state = .busy → t.state = .busy → s.cnt = 1 → t.cnt = 1 → s.request = t.request →
    step s = .next u → step t = .next v → u.y = v.y ∧ u.err = v.err)

/-! ### The host's notation -/

/-- The requests of the four assembler operations; FSUB flips the second operand's sign bit
(30_encoding.md R38, R44). -/
def Obligations.AssemblerOperationsEncode : Prop :=
  ∀ a b : Word,
    decodeRequest (AsmOp.fadd.request a b) = .fadd a b ∧
    decodeRequest (AsmOp.fmul.request a b) = .fmul a b ∧
    decodeRequest (AsmOp.fdiv.request a b) = .fdiv a b ∧
    decodeRequest (AsmOp.fsub.request a b) = .fadd a (b ^^^ 0x80000000#32)

/-- A decimal literal is accepted exactly when it is a normal binary32 value, and then stands for that
value's pattern (30_encoding.md R44). -/
def Obligations.DecimalLiteralsAreExactNormals : Prop :=
  ∀ (neg : Bool) (digits places : Nat) (w : Word),
    decimalPattern neg digits places = some w ↔
      NormalPattern w ∧ (unpack w).s = neg ∧
        ieeeValue w = (if neg then -1 else 1) * ((digits : ℚ) / 10 ^ places)
end

