-- ==== Sys2Proof/Laws/State.lean ====
section
/-! SUPPORT. One lemma per field and register update, so that no later proof unfolds a record update. -/

namespace Sys2Proof.Machine

variable (s : State)

/-! ### `State.tick` -/

@[simp] theorem State.tick_op : (State.tick s).op = s.op := rfl
@[simp] theorem State.tick_a : (State.tick s).a = s.a := rfl
@[simp] theorem State.tick_b : (State.tick s).b = s.b := rfl
@[simp] theorem State.tick_y : (State.tick s).y = s.y := rfl
@[simp] theorem State.tick_err : (State.tick s).err = s.err := rfl
@[simp] theorem State.tick_state : (State.tick s).state = s.state := rfl
@[simp] theorem State.tick_cnt : (State.tick s).cnt = s.cnt := rfl
@[simp] theorem State.tick_config : (State.tick s).config = s.config := rfl
@[simp] theorem State.tick_drive : (State.tick s).drive = s.drive.tail := rfl

/-! ### `State.applyReset` -/

@[simp] theorem State.applyReset_op : (State.applyReset s).op = 0b00#2 := rfl
@[simp] theorem State.applyReset_a : (State.applyReset s).a = 0#32 := rfl
@[simp] theorem State.applyReset_b : (State.applyReset s).b = 0#32 := rfl
@[simp] theorem State.applyReset_y : (State.applyReset s).y = 0#32 := rfl
@[simp] theorem State.applyReset_err : (State.applyReset s).err = false := rfl
@[simp] theorem State.applyReset_state : (State.applyReset s).state = .idle := rfl
@[simp] theorem State.applyReset_cnt : (State.applyReset s).cnt = 0 := rfl
@[simp] theorem State.applyReset_config : (State.applyReset s).config = s.config := rfl
@[simp] theorem State.applyReset_drive : (State.applyReset s).drive = s.drive := rfl

/-! ### `State.accept` -/

@[simp] theorem State.accept_op (r : Request) : (State.accept r s).op = r.op := rfl
@[simp] theorem State.accept_a (r : Request) : (State.accept r s).a = r.a := rfl
@[simp] theorem State.accept_b (r : Request) : (State.accept r s).b = r.b := rfl
@[simp] theorem State.accept_y (r : Request) : (State.accept r s).y = s.y := rfl
@[simp] theorem State.accept_err (r : Request) : (State.accept r s).err = s.err := rfl
@[simp] theorem State.accept_state (r : Request) : (State.accept r s).state = .busy := rfl
@[simp] theorem State.accept_cnt (r : Request) : (State.accept r s).cnt = s.config.latency := rfl
@[simp] theorem State.accept_config (r : Request) : (State.accept r s).config = s.config := rfl
@[simp] theorem State.accept_drive (r : Request) : (State.accept r s).drive = s.drive := rfl

/-! ### `State.complete` -/

@[simp] theorem State.complete_op (y : Word) (e : Bool) : (State.complete y e s).op = s.op := rfl
@[simp] theorem State.complete_a (y : Word) (e : Bool) : (State.complete y e s).a = s.a := rfl
@[simp] theorem State.complete_b (y : Word) (e : Bool) : (State.complete y e s).b = s.b := rfl
@[simp] theorem State.complete_y (y : Word) (e : Bool) : (State.complete y e s).y = y := rfl
@[simp] theorem State.complete_err (y : Word) (e : Bool) : (State.complete y e s).err = e := rfl
@[simp] theorem State.complete_state (y : Word) (e : Bool) : (State.complete y e s).state = .done := rfl
@[simp] theorem State.complete_cnt (y : Word) (e : Bool) : (State.complete y e s).cnt = 0 := rfl
@[simp] theorem State.complete_config (y : Word) (e : Bool) : (State.complete y e s).config = s.config := rfl
@[simp] theorem State.complete_drive (y : Word) (e : Bool) : (State.complete y e s).drive = s.drive := rfl

/-! ### `State.release` -/

@[simp] theorem State.release_op : (State.release s).op = s.op := rfl
@[simp] theorem State.release_a : (State.release s).a = s.a := rfl
@[simp] theorem State.release_b : (State.release s).b = s.b := rfl
@[simp] theorem State.release_y : (State.release s).y = s.y := rfl
@[simp] theorem State.release_err : (State.release s).err = s.err := rfl
@[simp] theorem State.release_state : (State.release s).state = .idle := rfl
@[simp] theorem State.release_cnt : (State.release s).cnt = s.cnt := rfl
@[simp] theorem State.release_config : (State.release s).config = s.config := rfl
@[simp] theorem State.release_drive : (State.release s).drive = s.drive := rfl

/-! ### `State.countDown` -/

@[simp] theorem State.countDown_op : (State.countDown s).op = s.op := rfl
@[simp] theorem State.countDown_a : (State.countDown s).a = s.a := rfl
@[simp] theorem State.countDown_b : (State.countDown s).b = s.b := rfl
@[simp] theorem State.countDown_y : (State.countDown s).y = s.y := rfl
@[simp] theorem State.countDown_err : (State.countDown s).err = s.err := rfl
@[simp] theorem State.countDown_state : (State.countDown s).state = s.state := rfl
@[simp] theorem State.countDown_cnt (h : s.cnt ≠ 0) : (State.countDown s).cnt = s.cnt - 1 := if_neg h
@[simp] theorem State.countDown_cnt_wraps (h : s.cnt = 0) :
    (State.countDown s).cnt = 2 ^ cntWidth s.config - 1 := if_pos h
@[simp] theorem State.countDown_config : (State.countDown s).config = s.config := rfl
@[simp] theorem State.countDown_drive : (State.countDown s).drive = s.drive := rfl

/-! ### `State.placeRequest` -/

@[simp] theorem State.placeRequest_op (r : Request) : (State.placeRequest r s).op = r.op := rfl
@[simp] theorem State.placeRequest_a (r : Request) : (State.placeRequest r s).a = r.a := rfl
@[simp] theorem State.placeRequest_b (r : Request) : (State.placeRequest r s).b = r.b := rfl
@[simp] theorem State.placeRequest_y (r : Request) : (State.placeRequest r s).y = s.y := rfl
@[simp] theorem State.placeRequest_err (r : Request) : (State.placeRequest r s).err = s.err := rfl
@[simp] theorem State.placeRequest_state (r : Request) : (State.placeRequest r s).state = .busy := rfl
@[simp] theorem State.placeRequest_cnt (r : Request) : (State.placeRequest r s).cnt = 1 := rfl
@[simp] theorem State.placeRequest_config (r : Request) : (State.placeRequest r s).config = s.config := rfl
@[simp] theorem State.placeRequest_drive (r : Request) : (State.placeRequest r s).drive = Pins.quiet :: s.drive := rfl

/-! ### Views of the registers -/

@[simp] theorem State.tick_request : s.tick.request = s.request := rfl
@[simp] theorem State.accept_request (r : Request) : (State.accept r s).request = r := rfl
@[simp] theorem State.placeRequest_request (r : Request) : (State.placeRequest r s).request = r := rfl
@[simp] theorem State.placeRequest_pins (r : Request) : (State.placeRequest r s).pins = Pins.quiet := rfl
@[simp] theorem State.tick_placeRequest_drive (r : Request) : (State.placeRequest r s).tick.drive = s.drive := rfl
@[simp] theorem State.request_op : s.request.op = s.op := rfl
@[simp] theorem State.request_a : s.request.a = s.a := rfl
@[simp] theorem State.request_b : s.request.b = s.b := rfl
@[simp] theorem State.outputs_reqReady : s.outputs.reqReady = (s.state == .idle) := rfl
@[simp] theorem State.outputs_rspValid : s.outputs.rspValid = (s.state == .done) := rfl
@[simp] theorem State.outputs_rspY : s.outputs.rspY = s.y := rfl
@[simp] theorem State.outputs_rspErr : s.outputs.rspErr = s.err := rfl

/-! ### Pins of a host -/

@[simp] theorem Pins.quiet_rst : Pins.quiet.rst = false := rfl
@[simp] theorem Pins.quiet_reqValid : Pins.quiet.reqValid = false := rfl
@[simp] theorem Pins.quiet_rspReady : Pins.quiet.rspReady = false := rfl
@[simp] theorem Pins.offer_rst (r : Request) : (Pins.offer r).rst = false := rfl
@[simp] theorem Pins.offer_reqValid (r : Request) : (Pins.offer r).reqValid = true := rfl
@[simp] theorem Pins.offer_request (r : Request) : (Pins.offer r).request = r := rfl
@[simp] theorem Pins.take_rst : Pins.take.rst = false := rfl
@[simp] theorem Pins.take_rspReady : Pins.take.rspReady = true := rfl

theorem State.pins_cons (p : Pins) (ps : List Pins) : State.pins { s with drive := p :: ps } = p := rfl
theorem State.pins_nil : State.pins { s with drive := [] } = Pins.quiet := rfl

end Sys2Proof.Machine
end

