-- ==== Sys2Proof/Laws/Primitives.lean ====
section
/-! SUPPORT. One lemma per primitive that says what it can answer; the operators never see a model fault. -/

namespace Sys2Proof.Machine

/-! ### Operand assembly -/

theorem sig_eq (f : BitVec 23) : sig f = 2 ^ 23 + f.toNat := by
  simpa [sig] using (Nat.two_pow_add_eq_or_of_lt f.isLt 1).symm

theorem sig_lower (f : BitVec 23) : 2 ^ 23 ≤ sig f := by
  rw [sig_eq]; omega

theorem sig_upper (f : BitVec 23) : sig f < 2 ^ 24 := by
  have := f.isLt
  rw [sig_eq]; omega

theorem sig_ne_zero (f : BitVec 23) : sig f ≠ 0 := by
  have := sig_lower f
  omega

theorem wide_eq (f : BitVec 23) : wide f = 8 * (2 ^ 23 + f.toNat) := by
  rw [wide, sig_eq, Nat.shiftLeft_eq]; omega

/-! ### Bit scan and sticky shift -/

@[simp] theorem hsb_zero : hsb 0 = .error .hsbOfZero := rfl

theorem hsb_of_ne_zero {v : Nat} (h : v ≠ 0) : hsb v = .ok (Nat.log2 v) := if_neg h

@[simp] theorem shrSticky_by_zero (v : Nat) : shrSticky v 0 = v := rfl

@[simp] theorem shrSticky_zero (k : Nat) : shrSticky 0 k = 0 := by
  simp [shrSticky]

theorem shrSticky_of_ne_zero (v : Nat) {k : Nat} (h : k ≠ 0) :
    shrSticky v k = v / 2 ^ k ||| (if v % 2 ^ k ≠ 0 then 1 else 0) := by
  rw [shrSticky, if_neg h, Nat.shiftRight_eq_div_pow]

@[simp] theorem align_by_zero (v : Nat) : align v 0 = v := rfl

theorem align_succ (v k : Nat) : align v (k + 1) = align (v >>> 1 ||| v % 2) k := rfl

/-! ### Normalization -/

@[simp] theorem normalize_zero (limit : CollapseShift) : normalize limit 0 = .ok .collapsed := rfl

/-- Everything `normalize` can answer for a nonzero magnitude. -/
theorem normalize_of_ne_zero (limit : CollapseShift) {m : Nat} (h : m ≠ 0) :
    normalize limit m =
      .ok (if 26 - (Nat.log2 m : Int) > collapseLimit limit then .collapsed
        else if 26 - (Nat.log2 m : Int) > 0 then
          .normal (m <<< (26 - (Nat.log2 m : Int)).toNat) (26 - (Nat.log2 m : Int))
        else .normal (shrSticky m (-(26 - (Nat.log2 m : Int))).toNat) (26 - (Nat.log2 m : Int))) := by
  simp only [normalize, if_neg h, hsb_of_ne_zero h]
  split
  · rfl
  · split <;> rfl

/-- `normalize` never raises the fault of the bit scan (60_exceptions.md R78). -/
theorem normalize_answers (limit : CollapseShift) (m : Nat) : ∃ r, normalize limit m = .ok r := by
  by_cases h : m = 0
  · exact ⟨_, h ▸ normalize_zero limit⟩
  · exact ⟨_, normalize_of_ne_zero limit h⟩

/-! ### Rounding -/

theorem roundEven_eq (w : Nat) :
    roundEven w = if w % 8 > 4 ∨ (w % 8 = 4 ∧ w / 8 % 2 = 1) then w / 8 + 1 else w / 8 := by
  simp only [roundEven, Nat.shiftRight_eq_div_pow, Nat.reducePow]

/-! ### Packing -/

theorem expPack_toNat (e : Int) : ((expPack e).toNat : Int) = e % 256 := by
  rw [expPack, BitVec.toNat_ofNat]; omega

/-! ### Finishing -/

/-- Everything `finish` can answer. -/
theorem finish_cases (limit : CollapseShift) (m : Nat) (e : Int) :
    finish limit m e = .ok .collapsed ∨
    ∃ w1 sh1 w2 sh2, normalize limit m = .ok (.normal w1 sh1) ∧
      normalize limit (roundEven w1 <<< 3) = .ok (.normal w2 sh2) ∧
      finish limit m e = .ok (.normal
        { w1, sh1, r1 := roundEven w1, w2, sh2, r2 := roundEven w2, e2 := e - sh1 - sh2 }) := by
  obtain ⟨n1, h1⟩ := normalize_answers limit m
  cases n1 with
  | collapsed => exact .inl (by simp [finish, h1])
  | normal w1 sh1 =>
    obtain ⟨n2, h2⟩ := normalize_answers limit (roundEven w1 <<< 3)
    cases n2 with
    | collapsed => exact .inl (by simp [finish, h1, h2])
    | normal w2 sh2 => exact .inr ⟨w1, sh1, w2, sh2, h1, h2, by simp [finish, h1, h2]⟩

theorem finish_answers (limit : CollapseShift) (m : Nat) (e : Int) : ∃ r, finish limit m e = .ok r := by
  rcases finish_cases limit m e with h | ⟨_, _, _, _, -, -, h⟩ <;> exact ⟨_, h⟩

theorem finishResult_answers (limit : CollapseShift) (s : Bool) (m : Nat) (e : Int) :
    ∃ y, finishResult limit s m e = .ok y := by
  obtain ⟨r, h⟩ := finish_answers limit m e
  exact ⟨result s r, by simp [finishResult, h]⟩

@[simp] theorem result_collapsed (s : Bool) : result s .collapsed = 0#32 := rfl

@[simp] theorem result_normal (s : Bool) (p : Passes) : result s (.normal p) = pack s p.e2 p.r2 := rfl

/-! ### Wide multiply and long division -/

@[simp] theorem mulwide_zero (a : Nat) : mulwide a 0 = .ok 0 := rfl

theorem mulwide_of_ne_zero (a : Nat) {b : Nat} (h : b ≠ 0) :
    mulwide a b = .ok (mulLoop a b (Nat.log2 b + 1)) := by
  simp [mulwide, if_neg h, hsb_of_ne_zero h]

theorem mulLoop_succ (a b n : Nat) :
    mulLoop a b (n + 1) = mulLoop a b n + (if b.testBit n then a <<< n else 0) := rfl

theorem longdivLoop_succ (V n R Q : Nat) :
    longdivLoop V (n + 1) R Q =
      if R ≥ V then longdivLoop V n ((R - V) <<< 1) (Q <<< 1 ||| 1)
      else longdivLoop V n (R <<< 1) (Q <<< 1) := rfl

@[simp] theorem longdiv_zero (n D : Nat) : longdiv n D 0 = .error .divisorZero := rfl

theorem longdiv_of_ne_zero (n D : Nat) {V : Nat} (h : V ≠ 0) :
    longdiv n D V =
      .ok { q := (longdivLoop V n D 0).2, st := if (longdivLoop V n D 0).1 ≠ 0 then 1 else 0 } :=
  if_neg h

/-! ### The operators -/

/-- FADD's alignment when `a` has the larger exponent field, or the same. -/
theorem addPath_of_le {a b : Word} (h : (unpack b).e.toNat ≤ (unpack a).e.toNat) :
    (addPath a b).mA = wide (unpack a).f ∧
    (addPath a b).mB = align (wide (unpack b).f) ((unpack a).e.toNat - (unpack b).e.toNat) ∧
    (addPath a b).E = (unpack a).e.toNat := by
  have hd : (((unpack a).e.toNat : Int) - (unpack b).e.toNat) ≥ 0 := by omega
  have ht : (((unpack a).e.toNat : Int) - (unpack b).e.toNat).toNat =
      (unpack a).e.toNat - (unpack b).e.toNat := by omega
  simp only [addPath, if_pos hd, ht, and_self]

/-- FADD's alignment when `b` has the larger exponent field. -/
theorem addPath_of_lt {a b : Word} (h : (unpack a).e.toNat < (unpack b).e.toNat) :
    (addPath a b).mA = align (wide (unpack a).f) ((unpack b).e.toNat - (unpack a).e.toNat) ∧
    (addPath a b).mB = wide (unpack b).f ∧
    (addPath a b).E = (unpack b).e.toNat := by
  have hd : ¬(((unpack a).e.toNat : Int) - (unpack b).e.toNat) ≥ 0 := by omega
  have ht : (-(((unpack a).e.toNat : Int) - (unpack b).e.toNat)).toNat =
      (unpack b).e.toNat - (unpack a).e.toNat := by omega
  simp only [addPath, if_neg hd, ht, and_self]

/-- FADD with equal signs adds the aligned mantissas. -/
theorem addPath_same_sign {a b : Word} (h : (unpack a).s = (unpack b).s) :
    (addPath a b).m = (addPath a b).mA + (addPath a b).mB ∧ (addPath a b).s = (unpack a).s := by
  simp only [addPath, if_pos h, and_self]

/-- FADD with different signs subtracts the negative operand from the positive one. -/
theorem addPath_signs_differ {a b : Word} (h : (unpack a).s ≠ (unpack b).s) :
    let d : Int := if (unpack a).s then ((addPath a b).mB : Int) - (addPath a b).mA
      else ((addPath a b).mA : Int) - (addPath a b).mB
    (addPath a b).m = d.natAbs ∧ (addPath a b).s = decide (d < 0) := by
  refine ⟨?_, by simp only [addPath, if_neg h]⟩
  have abs (d : Int) : (if d < 0 then (-d).toNat else d.toNat) = d.natAbs := by split <;> omega
  simp only [addPath, if_neg h, abs]


theorem fadd_answers (c : Config) (a b : Word) : ∃ y, fadd c a b = .ok y :=
  finishResult_answers _ _ _ _

theorem mulPath_eq (a b : Word) :
    mulPath a b = .ok
      { P := mulLoop (sig (unpack a).f) (sig (unpack b).f) (Nat.log2 (sig (unpack b).f) + 1)
        W := shrSticky (mulLoop (sig (unpack a).f) (sig (unpack b).f) (Nat.log2 (sig (unpack b).f) + 1)) 20
        E := unbias (unpack a).e + unbias (unpack b).e + 127
        s := (unpack a).s ^^ (unpack b).s } := by
  simp [mulPath, mulwide_of_ne_zero _ (sig_ne_zero _)]

theorem fmul_answers (c : Config) (a b : Word) : ∃ y, fmul c a b = .ok y := by
  simp only [fmul, mulPath_eq]
  exact finishResult_answers _ _ _ _

theorem divPath_answers (N : Nat) (a b : Word) : ∃ p, divPath N a b = .ok p := by
  simp only [divPath, longdiv_of_ne_zero _ _ (sig_ne_zero _)]
  exact ⟨_, rfl⟩

theorem fdiv_answers (c : Config) (a b : Word) : ∃ y, fdiv c a b = .ok y := by
  obtain ⟨p, h⟩ := divPath_answers c.divIters a b
  simp only [fdiv, h]
  exact finishResult_answers _ _ _ _

end Sys2Proof.Machine
end

