-- ==== Sys2Proof/Laws/Step.lean ====
section
/-! SUPPORT. What an answer, a meaning and an edge can do, each said once; later proofs cite these. -/

namespace Sys2Proof.Machine

/-! ### Answers and meanings -/

@[simp] theorem answer_ok (y : Word) (e : Bool) (s : State) : answer (.ok y) e s = .next (s.complete y e) := rfl

@[simp] theorem answer_error (f : Fault) (e : Bool) (s : State) : answer (.error f) e s = .fault f := rfl

/-- Everything an answer can do when it gives a next state. -/
theorem answer_next {r : Except Fault Word} {e : Bool} {s t : State} (h : answer r e s = .next t) :
    ∃ y, r = .ok y ∧ t = s.complete y e := by
  cases r with
  | ok y => exact ⟨y, rfl, by simpa using h.symm⟩
  | error f => simp at h

/-- Every meaning is an answer. -/
theorem exec_answers (i : Instr) (s : State) : ∃ r e, exec i s = answer r e s := by
  cases i with
  | fadd a b => exact ⟨fadd s.config a b, errNone, rfl⟩
  | fmul a b => exact ⟨fmul s.config a b, errNone, rfl⟩
  | fdiv a b => exact ⟨fdiv s.config a b, errNone, rfl⟩
  | reserved a b => exact ⟨.ok 0#32, errReserved, rfl⟩

/-- Everything an instruction can do when it gives a next state: it completes. -/
theorem exec_next {i : Instr} {s t : State} (h : exec i s = .next t) :
    ∃ y e, t = s.complete y e := by
  obtain ⟨r, e, hr⟩ := exec_answers i s
  obtain ⟨y, -, hy⟩ := answer_next (hr.symm.trans h)
  exact ⟨y, e, hy⟩

/-- The meaning of the instruction held in `OP`, `A` and `B` completes with the transaction-level
response. -/
theorem exec_current_of_sf32 {s t : State} {rsp : Response} (hc : t.config = s.config)
    (h : sf32 s.config s.request = .ok rsp) :
    exec s.current t = .next (t.complete rsp.y rsp.err) := by
  unfold State.current decodeRequest
  unfold sf32 at h
  split_ifs at h ⊢
  · obtain ⟨y, hy⟩ := fadd_answers s.config s.request.a s.request.b
    rw [hy] at h; cases h
    simp only [exec, execFadd, hc, hy, answer_ok]
  · obtain ⟨y, hy⟩ := fmul_answers s.config s.request.a s.request.b
    rw [hy] at h; cases h
    simp only [exec, execFmul, hc, hy, answer_ok]
  · obtain ⟨y, hy⟩ := fdiv_answers s.config s.request.a s.request.b
    rw [hy] at h; cases h
    simp only [exec, execFdiv, hc, hy, answer_ok]
  · cases h; rfl

/-! ### One edge -/

/-- Everything one edge can do: seven cases, with their guards. -/
theorem step_cases {s : State} {o : Host.Outcome State Fault Refusal} (h : step s = o) :
    (s.pins.rst = true ∧ o = .next s.tick.applyReset) ∨
    (s.pins.rst = false ∧ s.state = .idle ∧ s.pins.reqValid = true ∧
      o = .next (s.tick.accept s.pins.request)) ∨
    (s.pins.rst = false ∧ s.state = .idle ∧ s.pins.reqValid = false ∧ o = .next s.tick) ∨
    (s.pins.rst = false ∧ s.state = .busy ∧ s.cnt = 1 ∧ o = exec s.current s.tick) ∨
    (s.pins.rst = false ∧ s.state = .busy ∧ s.cnt ≠ 1 ∧ o = .next s.tick.countDown) ∨
    (s.pins.rst = false ∧ s.state = .done ∧ s.pins.rspReady = true ∧ o = .next s.tick.release) ∨
    (s.pins.rst = false ∧ s.state = .done ∧ s.pins.rspReady = false ∧ o = .next s.tick) := by
  subst h
  unfold step clockEdge
  cases hr : s.pins.rst
  · cases hs : s.state
    · cases hv : s.pins.reqValid <;> simp [hr, hv]
    · by_cases hc : s.cnt = 1 <;> simp [hr, hc]
    · cases hv : s.pins.rspReady <;> simp [hr, hv]
  · simp [hr]

/-! ### Runs -/

@[simp] theorem runsTo_zero (s t : State) : RunsTo 0 s t ↔ s = t := by
  exact ⟨fun h => Host.Outcome.next.inj h, fun h => h ▸ rfl⟩

/-- A run of `k + 1` steps is a step and a run of `k` steps. -/
theorem runsTo_succ (k : Nat) (s t : State) :
    RunsTo (k + 1) s t ↔ ∃ u, step s = .next u ∧ RunsTo k u t := by
  have hstep : Sys2Proof.core.step s = step s := rfl
  simp only [RunsTo, Host.Core.run, hstep]
  cases h : step s with
  | next u => exact ⟨fun hr => ⟨u, rfl, hr⟩, fun ⟨v, hv, hr⟩ => by cases hv; exact hr⟩
  | fault f => simp
  | refused x => simp

/-- Runs one after the other. -/
theorem runsTo_add {j k : Nat} {s t u : State} (h1 : RunsTo j s t) (h2 : RunsTo k t u) :
    RunsTo (j + k) s u := by
  induction j generalizing s with
  | zero => rw [runsTo_zero] at h1; rw [Nat.zero_add, h1]; exact h2
  | succ j ih =>
    obtain ⟨v, hv, hr⟩ := (runsTo_succ j s t).mp h1
    rw [Nat.add_right_comm, runsTo_succ]
    exact ⟨v, hv, ih hr⟩

/-- What holds in a state and is kept by every step holds after every run. -/
theorem runsTo_keeps {P : State → Prop} (hstep : ∀ s t, P s → step s = .next t → P t) {k : Nat}
    {s t : State} (hs : P s) (h : RunsTo k s t) : P t := by
  induction k generalizing s with
  | zero => rw [runsTo_zero] at h; exact h ▸ hs
  | succ k ih =>
    obtain ⟨u, hu, hr⟩ := (runsTo_succ k s t).mp h
    exact ih (hstep s u hs hu) hr

end Sys2Proof.Machine
end

