-- ==== Sys2Proof/Laws/PerInstr.lean ====
section
/-! SUPPORT. Statements about every instruction as syntax, one lemma per constructor. -/

namespace Sys2Proof.Laws.CommandFields

/-- The fields of an instruction's request word stand where 30_encoding.md R38 puts them. -/
def Statement (i : Instr) : Prop :=
  cmdOp (encode i) = i.op ∧ cmdA (encode i) = i.a ∧ cmdB (encode i) = i.b

/-- A request word's fields are the request's. -/
theorem fields_of_cmdOfRequest (r : Request) :
    cmdOp (cmdOfRequest r) = r.op ∧ cmdA (cmdOfRequest r) = r.a ∧ cmdB (cmdOfRequest r) = r.b := by
  refine ⟨?_, ?_, ?_⟩ <;> (apply BitVec.eq_of_getLsbD_eq; intro j hj) <;>
    simp [cmdOp, cmdA, cmdB, cmdOfRequest] <;> grind

theorem fadd (a b : Word) : Statement (.fadd a b) := fields_of_cmdOfRequest _
theorem fmul (a b : Word) : Statement (.fmul a b) := fields_of_cmdOfRequest _
theorem fdiv (a b : Word) : Statement (.fdiv a b) := fields_of_cmdOfRequest _
theorem reserved (a b : Word) : Statement (.reserved a b) := fields_of_cmdOfRequest _

end Sys2Proof.Laws.CommandFields
end

