-- ==== Sys2Proof/Tests/Slice0.lean ====
section
/-! SUPPORT. The model's own tests: decoding of written-out words, one step per instruction, the checks of
WellFormed, and a witness for the hypotheses of every statement. Expected values are those of
95_test_vectors.md, of the examples in the rules, or computed by hand from the rules. -/

namespace Sys2Proof.Machine.Tests

/-! ### Helpers -/

/-- The response registers and the control state of a next state. -/
def shown : Host.Outcome State Fault Refusal → Option (Word × Bool × CtrlState)
  | .next t => some (t.y, t.err, t.state)
  | .fault _ => none
  | .refused _ => none

/-- One step after reset with the request word `w` placed for it. -/
def firstStep (w : Nat) : Option (Word × Bool × CtrlState) := shown (step (State.reset.withFetchWord 72 w))

/-- The request FADD 1.5, 2.5. -/
def addRequest : Request := { op := 0b00#2, a := 0x3FC00000#32, b := 0x40200000#32 }

/-- Pins with reset raised. -/
def resetPins : Pins := { Pins.offer addRequest with rst := true }

/-- Pins of a host that always offers and always takes. -/
def eagerPins : Pins := { Pins.offer addRequest with rspReady := true }

/-- An idle core to which a request is offered, with one take after `LATENCY = 1`. -/
def offered : State := { State.reset with drive := hostDrive 1 addRequest }

/-- A busy core one edge before completion. -/
def completing : State := State.reset.placeRequest addRequest

/-- A core that shows the response of FADD 1.5, 2.5 and whose host takes it. -/
def responding : State :=
  { State.reset with
    op := 0b00#2, a := 0x3FC00000#32, b := 0x40200000#32, y := 0x40800000#32, state := .done,
    drive := [Pins.take] }

/-- The default parameters with the other collapse threshold. -/
def ieeeConfig : Config := { Config.defaults with collapseShift := .ieee26 }

/-! ### Decoding: words written out bit by bit from 30_encoding.md R38, R39 -/

theorem test_decode_fadd :
    decodeCmd 0b00_00111111110000000000000000000000_01000000001000000000000000000000#66 =
      .fadd 0x3FC00000#32 0x40200000#32 := by decide

theorem test_decode_fmul :
    decodeCmd 0b01_01000000010000000000000000000000_00111111000000000000000000000000#66 =
      .fmul 0x40400000#32 0x3F000000#32 := by decide

theorem test_decode_fdiv :
    decodeCmd 0b10_01000001001000000000000000000000_01000000100000000000000000000000#66 =
      .fdiv 0x41200000#32 0x40800000#32 := by decide

theorem test_decode_reserved :
    decodeCmd 0b11_00010010001101000101011001111000_10011010101111001101111011110000#66 =
      .reserved 0x12345678#32 0x9ABCDEF0#32 := by decide

/-- The frame of `01:40400000:3F000000`, its bytes written by hand. -/
theorem test_decode_frame :
    decodeBytes [0x00#8, 0x00#8, 0x00#8, 0x3F#8, 0x00#8, 0x00#8, 0x40#8, 0x40#8, 0x01#8, 0xAA#8] =
      .ok (.fmul 0x40400000#32 0x3F000000#32, [0xAA#8]) := by decide

theorem test_decode_table_word :
    decodeTableWord 72 0x24120000040800000 = some (.fdiv 0x41200000#32 0x40800000#32) := by decide

/-! ### Well-formedness: what each check refuses -/

theorem test_illegal_latency_refused :
    Config.legal { Config.defaults with latency := 0 } = false := by decide

theorem test_illegal_iterations_refused :
    Config.legal { Config.defaults with divIters := 47 } = false := by decide

theorem test_padding_refused :
    framePaddingClear 0x04#8 = false ∧
    decodeBytes [0#8, 0#8, 0#8, 0#8, 0#8, 0#8, 0#8, 0#8, 0x04#8] = .error .paddingSet := by decide

theorem test_short_frame_refused : decodeBytes [0#8, 0#8] = .error .truncated := by decide

theorem test_legal_accepted :
    Config.defaults.legal = true ∧ (Instr.reserved 0x7FC00000#32 0x00000001#32).wellFormed = true := by
  decide

/-! ### One step per instruction -/

/-- FADD-27 of 95_test_vectors.md: cancellation, and a working exponent that wraps. -/
theorem test_fadd_wraps : firstStep 0x00080000180800000 = some (0x75000000#32, false, .done) := by decide

/-- FADD-9 of 95_test_vectors.md: a tie that rounds up and carries. -/
theorem test_fadd_carries : firstStep 0x03FFFFFFF33800000 = some (0x40000000#32, false, .done) := by decide

/-- 42_multiply.md R67: the sticky bit decides the rounding. -/
theorem test_fmul_sticky : firstStep 0x13F8000013FC00001 = some (0x3FC00003#32, false, .done) := by decide

/-- FMUL-5 of 95_test_vectors.md: a product of at least 2, and the sign. -/
theorem test_fmul_sign : firstStep 0x1C040000040400000 = some (0xC1100000#32, false, .done) := by decide

/-- FDIV-2 of 95_test_vectors.md: 1 / 3, a quotient below 1 with a sticky remainder. -/
theorem test_fdiv_third : firstStep 0x23F80000040400000 = some (0x3EAAAAAB#32, false, .done) := by decide

/-- 43_divide.md R74: a negative zero pattern as divisor. -/
theorem test_fdiv_by_zero_pattern :
    firstStep 0x23F80000080000000 = some (0xFF000000#32, false, .done) := by decide

/-- 95_test_vectors.md 3.5: the reserved op code. -/
theorem test_reserved_response :
    firstStep 0x3123456789ABCDEF0 = some (0x00000000#32, true, .done) := by decide

/-- The threshold 26 of 95_test_vectors.md 3.4. -/
theorem test_fadd_collapse_threshold :
    fadd Config.defaults 0x3F800000#32 0xBF7FFFFF#32 = .ok 0x00000000#32 ∧
    fadd ieeeConfig 0x3F800000#32 0xBF7FFFFF#32 = .ok 0x33800000#32 := by decide

/-! ### Edges (95_test_vectors.md 4) -/

theorem test_idle_accepts :
    step offered = .next { offered with
      op := 0b00#2, a := 0x3FC00000#32, b := 0x40200000#32, cnt := 1, state := .busy,
      drive := [Pins.quiet, Pins.take] } := by rfl

theorem test_reset_wins :
    shown (step { completing with drive := [resetPins] }) = some (0x00000000#32, false, .idle) := by decide

/-! ### The host's notation (30_encoding.md R38, R44) -/

theorem test_cmd_text :
    cmdText { op := 0b01#2, a := 0x40400000#32, b := 0x3F000000#32 } =
      ['0', '1', ':', '4', '0', '4', '0', '0', '0', '0', '0', ':', '3', 'F', '0', '0', '0', '0', '0', '0'] := by
  decide

/-- 1.5 is `0x3FC00000`, -4 is `0xC0800000`, and 0.1 is no binary32 value. -/
theorem test_decimal_literals :
    decimalPattern false 15 1 = some 0x3FC00000#32 ∧ decimalPattern true 4 0 = some 0xC0800000#32 ∧
    decimalPattern false 1 1 = none := by decide +kernel

/-! ### Witnesses: the hypotheses of each statement hold together somewhere -/

theorem witness_OpFieldSelectsTheInstruction :
    cmdOp 0x0FFFFFFFFFFFFFFFF#66 = 0b00#2 ∧ cmdOp 0x10000000000000000#66 = 0b01#2 ∧
    cmdOp 0x2FFFFFFFFFFFFFFFF#66 = 0b10#2 ∧ cmdOp 0x30000000000000000#66 = 0b11#2 := by decide

theorem witness_OpcodeTableRowsDecode :
    0x0FFFFFFFFFFFFFFFF#66 &&& 0x30000000000000000#66 = 0x00000000000000000#66 ∧
    0x10000000000000000#66 &&& 0x30000000000000000#66 = 0x10000000000000000#66 ∧
    0x2FFFFFFFFFFFFFFFF#66 &&& 0x30000000000000000#66 = 0x20000000000000000#66 ∧
    0x30000000000000000#66 &&& 0x30000000000000000#66 = 0x30000000000000000#66 := by decide

theorem witness_FramesDecodeToWhatWasEncoded :
    decodeBytes [0xFF#8, 0xFF#8, 0xFF#8, 0xFF#8, 0#8, 0#8, 0#8, 0#8, 0x03#8, 0x55#8] =
      .ok (.reserved 0#32 0xFFFFFFFF#32, [0x55#8]) := by decide

theorem witness_FdivAnswersTheRoundedQuotient :
    27 ≤ State.reset.config.divIters ∧
    27 ≤ { State.reset with config := { Config.defaults with divIters := 27 } }.config.divIters := by
  decide

theorem witness_ReservedOpAnswersTheErrorResponse :
    (offered.pins.rst = false ∧ offered.state = .idle ∧ offered.pins.reqValid = true) ∧
    ((Instr.fdiv 0x41200000#32 0x40800000#32).op ≠ 0b11#2 ∧
      exec (.fdiv 0x41200000#32 0x40800000#32) State.reset =
        .next (State.reset.complete 0x40200000#32 false)) := by
  refine ⟨by decide, by decide, ?_⟩
  rfl

theorem witness_CompletionLeavesRequestRegisters :
    exec (.reserved 0#32 0#32) completing = .next (completing.complete 0#32 true) := by rfl

theorem witness_BitScanImplementationsAgree :
    (0 < 1 ∧ 1 < 2 ^ 32) ∧ (0 < 2 ^ 32 - 1 ∧ 2 ^ 32 - 1 < 2 ^ 32) ∧ (0x80000000#32 : Word) ≠ 0#32 := by
  decide

theorem witness_NormalizeGivesAWindow :
    (8 < 2 ^ 32 ∧ normalize .source23 8 = .ok (.normal 0x4000000 23)) ∧
    (0x4000000 < 2 ^ 32 ∧ normalize .ieee26 0x4000000 = .ok (.normal 0x4000000 0)) ∧
    (0xFFFFFFFF < 2 ^ 32 ∧ normalize .source23 0xFFFFFFFF = .ok (.normal 0x7FFFFFF (-5))) := by decide

theorem witness_RoundingIsToNearestEven :
    (2 ^ 26 ≤ 2 ^ 26 ∧ 2 ^ 26 < 2 ^ 27) ∧
    (2 ^ 26 ≤ 0x7FFFFFF ∧ 0x7FFFFFF < 2 ^ 27 ∧ roundEven 0x7FFFFFF = 2 ^ 24) ∧
    (0x4000005 >>> 2 = 0x4000006 >>> 2 ∧ (0x4000005 % 4 = 0 ↔ 0x4000006 % 4 = 0)) := by decide

theorem witness_StickyShiftCollectsDroppedBits :
    (1 ≤ 1 ∧ 1 ≤ 1) ∧ 5 < 2 ^ 3 ∧ 0 < 2 ^ 0 := by decide

theorem witness_AlignmentIsTheStickyShift : 0x7FFFFF8 < 2 ^ 27 ∧ 27 ≤ 255 := by decide

theorem witness_WideProductIsExact : 2 ^ 32 - 1 < 2 ^ 32 := by decide

theorem witness_LongDivisionIsExact :
    48 ≤ 48 ∧ 2 ^ 23 ≤ 0x800000 ∧ 0x800000 < 2 ^ 24 ∧ 2 ^ 23 ≤ 0xFFFFFF ∧ 0xFFFFFF < 2 ^ 24 := by decide

theorem witness_FinishRoundsOnce :
    (7 < 2 ^ 32 ∧ normalize .source23 7 = .ok .collapsed) ∧
    (0x7FFFFFC < 2 ^ 32 ∧ normalize .source23 0x7FFFFFC = .ok (.normal 0x7FFFFFC 0) ∧
      roundEven 0x7FFFFFC = 2 ^ 24) ∧
    (0x4000004 < 2 ^ 32 ∧ normalize .source23 0x4000004 = .ok (.normal 0x4000004 0) ∧
      roundEven 0x4000004 ≠ 2 ^ 24) := by decide

theorem witness_PackingWritesTheThreeFields :
    (2 ^ 23 ≤ 0x800000 ∧ 0x800000 < 2 ^ 24) ∧ (2 ^ 23 ≤ 0xFFFFFF ∧ 0xFFFFFF < 2 ^ 24) := by decide

/-- Equal signs, and different signs on FADD-8 of 95_test_vectors.md, which does not collapse. -/
theorem witness_IntermediatesStayInRange :
    48 ≤ 48 ∧ (unpack 0x00000000#32).s = (unpack 0x7FFFFFFF#32).s ∧
    (unpack 0x3F800001#32).s ≠ (unpack 0xBF800000#32).s ∧
    finish .source23 (addPath 0x3F800001#32 0xBF800000#32).m (addPath 0x3F800001#32 0xBF800000#32).E =
      .ok (.normal
        { w1 := 0x4000000, sh1 := 23, r1 := 0x800000, w2 := 0x4000000, sh2 := 0, r2 := 0x800000,
          e2 := 104 }) := by decide

/-- The larger exponent field at its least and greatest values, on either port. -/
theorem witness_FaddCollapsesExactlyOnTheNamedPairs :
    (addPath 0x00800000#32 0x807FFFFF#32).m = 4 ∧ (addPath 0x7F7FFFFF#32 0xFF800000#32).m = 4 ∧
    (addPath 0x3F800000#32 0xBF800000#32).m = 0 ∧
    Config.defaults.collapseShift = .source23 ∧ ieeeConfig.collapseShift = .ieee26 := by decide

theorem witness_FaddCancelsToCanonicalZero :
    fadd Config.defaults 0x00800000#32 0x80C00000#32 = .ok 0x80000000#32 := by decide

theorem witness_FaddIgnoresAFarSmallerOperand :
    (unpack 0x00000000#32).e.toNat + 26 ≤ (unpack 0x0D000000#32).e.toNat ∧
    (unpack 0x80000001#32).e.toNat + 26 ≤ (unpack 0x7FFFFFFF#32).e.toNat := by decide

theorem witness_FaddOfAZeroPattern :
    25 ≤ (unpack 0x0C800000#32).e.toNat ∧
    ((unpack 0x0C000001#32).e.toNat = 24 ∧ (unpack 0x0C000001#32).f.getLsbD 0 = true) := by decide

/-- Products just below and at `2^47`, and one that carries. -/
theorem witness_FmulShiftsAndCarry :
    (mulPath 0x3FC00000#32 0x3FC00000#32).map (fun q => decide (2 ^ 47 ≤ q.P)) = .ok true ∧
    (mulPath 0x3F800000#32 0x3FFFFFFF#32).map (fun q => decide (q.P < 2 ^ 47)) = .ok true ∧
    finish .source23 0x7FFFFFF 127 = .ok (.normal
      { w1 := 0x7FFFFFF, sh1 := 0, r1 := 0x1000000, w2 := 0x4000000, sh2 := -1, r2 := 0x800000,
        e2 := 128 }) := by decide

theorem witness_FmulIdentityCommutativityAndSign :
    fmul Config.defaults 0xC0400000#32 0x40400000#32 = .ok 0xC1100000#32 := by decide

theorem witness_FdivWindowIgnoresTheIterationCount : 27 ≤ 27 := by decide

theorem witness_FdivShiftsAndNeverCarries :
    27 ≤ 27 ∧ sig (unpack 0x3F800000#32).f ≤ sig (unpack 0x3F800000#32).f ∧
    sig (unpack 0x3F800000#32).f < sig (unpack 0x3F800001#32).f := by decide

theorem witness_FdivZeroDivisorIdentityAndSign :
    27 ≤ Config.defaults.divIters ∧
    fdiv Config.defaults 0xC1200000#32 0x40800000#32 = .ok 0xC0200000#32 ∧
    (unpack 0x80000000#32).e = 0#8 := by decide

theorem ieeeValue_one : ieeeValue 0x3F800000#32 = 1 := by
  have h : unpack 0x3F800000#32 = { s := false, e := 127#8, f := 0#23 } := by decide
  simp [ieeeValue, workingValue, h]

theorem ieeeValue_two : ieeeValue 0x40000000#32 = 2 := by
  have h : unpack 0x40000000#32 = { s := false, e := 128#8, f := 0#23 } := by decide
  simp [ieeeValue, workingValue, h]

/-- An exact value with an even pattern is its own IEEE result. -/
theorem ieeeRounds_of_exact {w : Word} (hn : NormalPattern w) (hw : w.getLsbD 0 = false)
    (hq : |ieeeValue w| < 2 ^ 128 - 2 ^ 103) : IeeeRounds (ieeeValue w) w := by
  refine ⟨hn, hq, fun z _ => ⟨?_, fun _ => .inr hw⟩⟩
  simp

theorem witness_FaddAgreesWithIeee :
    NormalPattern 0x3F800000#32 ∧ (addPath 0x3F800000#32 0x3F800000#32).m ≠ 4 ∧
    IeeeRounds (ieeeValue 0x3F800000#32 + ieeeValue 0x3F800000#32) 0x40000000#32 := by
  refine ⟨by decide, by decide, ?_⟩
  rw [ieeeValue_one, show (1 : ℚ) + 1 = ieeeValue 0x40000000#32 by rw [ieeeValue_two]; norm_num]
  exact ieeeRounds_of_exact (by decide) (by decide) (by rw [ieeeValue_two]; norm_num)

theorem witness_FaddAgreesWithIeee_zero_sum :
    NormalPattern 0x3F800000#32 ∧ NormalPattern 0xBF800000#32 ∧
    ieeeValue 0x3F800000#32 + ieeeValue 0xBF800000#32 = 0 := by
  have h : unpack 0xBF800000#32 = { s := true, e := 127#8, f := 0#23 } := by decide
  refine ⟨by decide, by decide, ?_⟩
  rw [ieeeValue_one]
  simp [ieeeValue, workingValue, h]

theorem witness_FmulAgreesWithIeee :
    NormalPattern 0x3F800000#32 ∧ NormalPattern 0x40000000#32 ∧
    IeeeRounds (ieeeValue 0x3F800000#32 * ieeeValue 0x40000000#32) 0x40000000#32 ∧
    1 / 2 ^ 126 ≤ |ieeeValue 0x3F800000#32 * ieeeValue 0x40000000#32| := by
  refine ⟨by decide, by decide, ?_, ?_⟩
  · rw [ieeeValue_one, one_mul]
    exact ieeeRounds_of_exact (by decide) (by decide) (by rw [ieeeValue_two]; norm_num)
  · rw [ieeeValue_one, ieeeValue_two]; norm_num

theorem witness_FdivAgreesWithIeee :
    27 ≤ Config.defaults.divIters ∧ NormalPattern 0x40000000#32 ∧ NormalPattern 0x3F800000#32 ∧
    IeeeRounds (ieeeValue 0x40000000#32 / ieeeValue 0x3F800000#32) 0x40000000#32 ∧
    1 / 2 ^ 126 ≤ |ieeeValue 0x40000000#32 / ieeeValue 0x3F800000#32| := by
  refine ⟨by decide, by decide, by decide, ?_, ?_⟩
  · rw [ieeeValue_one, div_one]
    exact ieeeRounds_of_exact (by decide) (by decide) (by rw [ieeeValue_two]; norm_num)
  · rw [ieeeValue_one, ieeeValue_two]; norm_num

/-- Every pattern's value is a whole number of subnormal units. -/
theorem ieeeValue_units (z : Word) : ∃ k : ℤ, ieeeValue z = k / 2 ^ 149 := by
  unfold ieeeValue
  dsimp only
  split
  · exact ⟨(if (unpack z).s then -1 else 1) * (unpack z).f.toNat, by push_cast; rfl⟩
  · rename_i he
    obtain ⟨n, hn⟩ : ∃ n, (unpack z).e.toNat = n + 1 :=
      Nat.exists_eq_succ_of_ne_zero fun h => he (BitVec.eq_of_toNat_eq (by simpa using h))
    refine ⟨(if (unpack z).s then -1 else 1) * 2 ^ n * (2 ^ 23 + (unpack z).f.toNat), ?_⟩
    have hp : (2 : ℚ) ^ (((unpack z).e.toNat : ℤ) - 127) = 2 ^ n / 2 ^ 126 := by
      rw [hn, show ((n + 1 : ℕ) : ℤ) - 127 = (n : ℤ) - (126 : ℕ) by push_cast; ring,
        zpow_sub₀ two_ne_zero, zpow_natCast, zpow_natCast]
    simp only [workingValue, hp]
    push_cast
    split <;> ring

/-- A value at most half a subnormal unit from an even pattern rounds to it. -/
theorem ieeeRounds_of_near {q : ℚ} {w : Word} (hn : NormalPattern w) (hw : w.getLsbD 0 = false)
    (hq : |q| < 2 ^ 128 - 2 ^ 103) (hd : |q - ieeeValue w| ≤ 1 / 2 ^ 150) : IeeeRounds q w := by
  refine ⟨hn, hq, fun z _ => ⟨?_, fun _ => .inr hw⟩⟩
  obtain ⟨k, hk⟩ := ieeeValue_units z
  obtain ⟨l, hl⟩ := ieeeValue_units w
  by_cases h : k = l
  · rw [hl, hk, h]
  · have h1 : (1 : ℚ) ≤ |(l : ℚ) - k| := by
      exact_mod_cast Int.one_le_abs (sub_ne_zero.mpr (Ne.symm h))
    have h2 : |ieeeValue w - ieeeValue z| = |(l : ℚ) - k| / 2 ^ 149 := by
      rw [hl, hk, ← sub_div, abs_div, abs_of_pos (by positivity : (0 : ℚ) < 2 ^ 149)]
    have h3 := abs_sub_abs_le_abs_sub (ieeeValue w - ieeeValue z) (ieeeValue w - q)
    rw [show ieeeValue w - ieeeValue z - (ieeeValue w - q) = q - ieeeValue z by ring,
      abs_sub_comm (ieeeValue w) q, h2] at h3
    have h4 : 1 / 2 ^ 149 ≤ |(l : ℚ) - k| / 2 ^ 149 := by gcongr
    have h5 : (1 : ℚ) / 2 ^ 149 = 1 / 2 ^ 150 + 1 / 2 ^ 150 := by norm_num
    linarith

theorem ieeeValue_least_normal : ieeeValue 0x00800000#32 = 1 / 2 ^ 126 := by
  have h : unpack 0x00800000#32 = { s := false, e := 1#8, f := 0#23 } := by decide
  simp [ieeeValue, workingValue, h]

/-- `0x00FFFFFF × 0x3F000000` and `0x00FFFFFF ÷ 0x40000000` are half a unit below the least normal. -/
theorem half_unit_below :
    ieeeValue 0x00FFFFFF#32 * ieeeValue 0x3F000000#32 = 1 / 2 ^ 126 - 1 / 2 ^ 150 ∧
    ieeeValue 0x00FFFFFF#32 / ieeeValue 0x40000000#32 = 1 / 2 ^ 126 - 1 / 2 ^ 150 := by
  have h : unpack 0x00FFFFFF#32 = { s := false, e := 1#8, f := 0x7FFFFF#23 } := by decide
  have h' : unpack 0x3F000000#32 = { s := false, e := 126#8, f := 0#23 } := by decide
  rw [ieeeValue_two]
  simp [ieeeValue, workingValue, h, h']
  norm_num

theorem ieeeRounds_half_unit_below : IeeeRounds (1 / 2 ^ 126 - 1 / 2 ^ 150) 0x00800000#32 :=
  ieeeRounds_of_near (by decide) (by decide) (by rw [abs_lt]; constructor <;> norm_num)
    (by rw [ieeeValue_least_normal, abs_le]; constructor <;> norm_num)

theorem witness_FmulAgreesWithIeeeAsR70Says :
    NormalPattern 0x00FFFFFF#32 ∧ NormalPattern 0x3F000000#32 ∧
    IeeeRounds (ieeeValue 0x00FFFFFF#32 * ieeeValue 0x3F000000#32) 0x00800000#32 :=
  ⟨by decide, by decide, by rw [half_unit_below.1]; exact ieeeRounds_half_unit_below⟩

/-- The product half a unit below, where FMUL answers one pattern less. -/
theorem witness_FmulJustBelowTheNormalRange :
    NormalPattern 0x00FFFFFF#32 ∧ NormalPattern 0x3F000000#32 ∧
    IeeeRounds (ieeeValue 0x00FFFFFF#32 * ieeeValue 0x3F000000#32) 0x00800000#32 ∧
    |ieeeValue 0x00FFFFFF#32 * ieeeValue 0x3F000000#32| < 1 / 2 ^ 126 - 1 / 2 ^ 151 := by
  refine ⟨by decide, by decide, ?_, ?_⟩ <;> rw [half_unit_below.1]
  · exact ieeeRounds_half_unit_below
  · rw [abs_lt]; constructor <;> norm_num

/-- The product `2^-126 - 2^-172`, where FMUL answers the IEEE result. -/
theorem witness_FmulJustBelowTheNormalRange_rounded_up :
    NormalPattern 0x00800001#32 ∧ NormalPattern 0x3F7FFFFE#32 ∧
    IeeeRounds (ieeeValue 0x00800001#32 * ieeeValue 0x3F7FFFFE#32) 0x00800000#32 ∧
    |ieeeValue 0x00800001#32 * ieeeValue 0x3F7FFFFE#32| < 1 / 2 ^ 126 ∧
    ¬ |ieeeValue 0x00800001#32 * ieeeValue 0x3F7FFFFE#32| < 1 / 2 ^ 126 - 1 / 2 ^ 151 := by
  have h : unpack 0x00800001#32 = { s := false, e := 1#8, f := 1#23 } := by decide
  have h' : unpack 0x3F7FFFFE#32 = { s := false, e := 126#8, f := 0x7FFFFE#23 } := by decide
  have hq : ieeeValue 0x00800001#32 * ieeeValue 0x3F7FFFFE#32 = 1 / 2 ^ 126 - 1 / 2 ^ 172 := by
    simp [ieeeValue, workingValue, h, h']
    norm_num
  refine ⟨by decide, by decide, ?_, ?_, ?_⟩ <;> rw [hq]
  · exact ieeeRounds_of_near (by decide) (by decide) (by rw [abs_lt]; constructor <;> norm_num)
      (by rw [ieeeValue_least_normal, abs_le]; constructor <;> norm_num)
  · rw [abs_lt]; constructor <;> norm_num
  · rw [not_lt, abs_of_pos] <;> norm_num

theorem witness_FdivJustBelowTheNormalRange :
    27 ≤ Config.defaults.divIters ∧ NormalPattern 0x00FFFFFF#32 ∧ NormalPattern 0x40000000#32 ∧
    IeeeRounds (ieeeValue 0x00FFFFFF#32 / ieeeValue 0x40000000#32) 0x00800000#32 ∧
    |ieeeValue 0x00FFFFFF#32 / ieeeValue 0x40000000#32| < 1 / 2 ^ 126 := by
  refine ⟨by decide, by decide, by decide, ?_, ?_⟩ <;> rw [half_unit_below.2]
  · exact ieeeRounds_half_unit_below
  · rw [abs_lt]; constructor <;> norm_num

theorem witness_StepRunsTheDecodedInstruction :
    (completing.pins.rst = false ∧ completing.state = .busy ∧ completing.cnt = 1 ∧
      decodeCmd (cmdOfRequest completing.request) = .fadd 0x3FC00000#32 0x40200000#32 ∧
      (Instr.fadd 0x3FC00000#32 0x40200000#32).wellFormed = true) ∧
    decodeTableWord 72 0x3FFFFFFFFFFFFFFFF = some (.reserved 0xFFFFFFFF#32 0xFFFFFFFF#32) := by decide

/-- One state for each clause. -/
theorem witness_EdgesWithoutReset :
    (offered.pins.rst = false ∧ offered.state = .idle ∧ offered.pins.reqValid = true) ∧
    (State.reset.pins.rst = false ∧ State.reset.state = .idle ∧ State.reset.pins.reqValid = false) ∧
    (completing.pins.rst = false ∧ completing.state = .busy ∧ completing.cnt = 1 ∧
      sf32 completing.config completing.request = .ok { y := 0x40800000#32, err := false }) ∧
    ({ completing with cnt := 2 }.pins.rst = false ∧ { completing with cnt := 2 }.state = .busy ∧
      2 ≤ { completing with cnt := 2 }.cnt) ∧
    (responding.pins.rst = false ∧ responding.state = .done ∧ responding.pins.rspReady = true) ∧
    ({ responding with drive := [] }.pins.rst = false ∧
      { responding with drive := [] }.state = .done ∧
      { responding with drive := [] }.pins.rspReady = false) := by decide

theorem witness_ResetEdgeSetsEveryRegister :
    { completing with drive := [resetPins] }.pins.rst = true := by decide

theorem witness_ReadyInTheFirstCycleAfterReset :
    { responding with drive := [resetPins, Pins.offer addRequest] }.drive =
      resetPins :: Pins.offer addRequest :: [] ∧
    resetPins.rst = true ∧ (Pins.offer addRequest).rst = false ∧
    (Pins.offer addRequest).reqValid = true := by decide

theorem witness_OnlyAcceptanceAndCompletionWriteRegisters :
    step responding = .next { responding with state := .idle, drive := [] } := by rfl

theorem reset_inv : State.reset.Inv := by
  constructor <;> decide

theorem witness_EveryStepKeepsTheInvariant :
    State.reset.Inv ∧ step State.reset = .next State.reset := ⟨reset_inv, rfl⟩

theorem witness_ProtocolRefinesOneTransaction :
    offered.config.legal = true ∧ offered.state = .idle ∧
    offered.drive = Pins.offer addRequest :: ([Pins.quiet] ++ [] ++ Pins.take :: []) ∧
    (Pins.offer addRequest).rst = false ∧ (Pins.offer addRequest).reqValid = true ∧
    [Pins.quiet].length = offered.config.latency ∧ (∀ x ∈ [Pins.quiet], x.rst = false) ∧
    (∀ x ∈ ([] : List Pins), x.rst = false ∧ x.rspReady = false) ∧
    Pins.take.rst = false ∧ Pins.take.rspReady = true ∧
    sf32 offered.config (Pins.offer addRequest).request =
      .ok { y := 0x40800000#32, err := false } := by decide

/-- A host that first declines the response and offers another request meanwhile. -/
theorem witness_ProtocolRefinesOneTransaction_held :
    let decline : Pins := { Pins.offer addRequest with rspReady := false }
    let s := { State.reset with drive := [Pins.offer addRequest, Pins.quiet, decline, Pins.take] }
    s.config.legal = true ∧ s.state = .idle ∧
    s.drive = Pins.offer addRequest :: ([Pins.quiet] ++ [decline] ++ Pins.take :: []) ∧
    (Pins.offer addRequest).rst = false ∧ (Pins.offer addRequest).reqValid = true ∧
    [Pins.quiet].length = s.config.latency ∧ (∀ x ∈ [Pins.quiet], x.rst = false) ∧
    (∀ x ∈ [decline], x.rst = false ∧ x.rspReady = false) ∧
    Pins.take.rst = false ∧ Pins.take.rspReady = true ∧
    sf32 s.config (Pins.offer addRequest).request = .ok { y := 0x40800000#32, err := false } := by
  decide

theorem witness_ProtocolRefinesEveryProgram :
    State.reset.config.legal = true ∧ State.reset.state = .idle := by decide

theorem witness_AcceptancesAreLatencyPlusTwoApart :
    (offered.config.legal = true ∧ offered.state = .idle ∧ offered.pins.reqValid = true ∧
      1 ≤ 2 ∧ 2 ≤ offered.config.latency + 1 ∧ NoReset 2 offered) ∧
    ({ State.reset with drive := List.replicate 4 eagerPins }.config.latency = 1 ∧
      { State.reset with drive := List.replicate 4 eagerPins }.state = .idle ∧
      4 ≤ (List.replicate 4 eagerPins).length ∧
      ∀ p ∈ (List.replicate 4 eagerPins).take 4,
        p.rst = false ∧ p.reqValid = true ∧ p.rspReady = true) := by
  unfold NoReset
  decide

theorem witness_ResponseDependsOnTheRequestAlone :
    (Config.defaults.legal = true ∧
      Config.legal { Config.defaults with divIters := 64, latency := 3 } = true) ∧
    (completing.pins.rst = false ∧ completing.state = .busy ∧ completing.cnt = 1 ∧
      { completing with y := 0x12345678#32 }.request = completing.request ∧
      shown (step completing) = some (0x40800000#32, false, .done) ∧
      shown (step { completing with y := 0x12345678#32 }) = some (0x40800000#32, false, .done)) := by
  decide

end Sys2Proof.Machine.Tests
end

section
/-! The obligations on the registers and the protocol (10_state.md, 70_reset_and_hazards.md R84): what one edge
can do, the invariant, and the refinement of the transaction-level model. -/

namespace Sys2Proof.Machine

/-! ### The coming pins -/

theorem State.pins_of_drive {s : State} {p : Pins} {ps : List Pins} (h : s.drive = p :: ps) : s.pins = p := by
  simp [State.pins, h]

/-! ### The transaction-level response -/

/-- Every response is either free of error or the fixed response to the reserved op code. -/
theorem sf32_cases (c : Config) (r : Request) :
    (∃ y, sf32 c r = .ok { y := y, err := false }) ∨ sf32 c r = .ok { y := 0#32, err := true } := by
  unfold sf32
  split_ifs
  · obtain ⟨y, hy⟩ := fadd_answers c r.a r.b
    exact .inl ⟨y, by rw [hy]; rfl⟩
  · obtain ⟨y, hy⟩ := fmul_answers c r.a r.b
    exact .inl ⟨y, by rw [hy]; rfl⟩
  · obtain ⟨y, hy⟩ := fdiv_answers c r.a r.b
    exact .inl ⟨y, by rw [hy]; rfl⟩
  · exact .inr rfl

theorem sf32_answers (c : Config) (r : Request) : ∃ rsp, sf32 c r = .ok rsp := by
  rcases sf32_cases c r with ⟨y, h⟩ | h <;> exact ⟨_, h⟩

/-- An error response carries the zero pattern (60_exceptions.md R77). -/
theorem sf32_y_of_err {c : Config} {r : Request} {rsp : Response} (h : sf32 c r = .ok rsp)
    (he : rsp.err = true) : rsp.y = 0#32 := by
  rcases sf32_cases c r with ⟨y, hy⟩ | hy
  · cases h.symm.trans hy
    cases he
  · cases h.symm.trans hy
    rfl

/-- The registers after a whole transaction with response `rsp`. -/
def State.served (r : Request) (rsp : Response) (s : State) : State :=
  { s with op := r.op, a := r.a, b := r.b, y := rsp.y, err := rsp.err, state := .idle, cnt := 0 }

theorem State.transact_of_sf32 {s : State} {r : Request} {rsp : Response}
    (h : sf32 s.config r = .ok rsp) : s.transact r = .next (s.served r rsp) := by
  simp only [State.transact, h, State.served]

/-! ### One edge as a relation -/

/-- One rising edge from `s` to `t`, a constructor for every row of the edge table
(70_reset_and_hazards.md R84, R85). -/
inductive Edge (s : State) : State → Prop where
  | reset (hr : s.pins.rst = true) : Edge s s.tick.applyReset
  | accept (hr : s.pins.rst = false) (hs : s.state = .idle) (hv : s.pins.reqValid = true) :
      Edge s (s.tick.accept s.pins.request)
  | stayIdle (hr : s.pins.rst = false) (hs : s.state = .idle) (hv : s.pins.reqValid = false) :
      Edge s s.tick
  | complete (hr : s.pins.rst = false) (hs : s.state = .busy) (hc : s.cnt = 1) {rsp : Response}
      (h : sf32 s.config s.request = .ok rsp) : Edge s (s.tick.complete rsp.y rsp.err)
  | countDown (hr : s.pins.rst = false) (hs : s.state = .busy) (hc : s.cnt ≠ 1) :
      Edge s s.tick.countDown
  | release (hr : s.pins.rst = false) (hs : s.state = .done) (hv : s.pins.rspReady = true) :
      Edge s s.tick.release
  | stayDone (hr : s.pins.rst = false) (hs : s.state = .done) (hv : s.pins.rspReady = false) :
      Edge s s.tick

theorem edge_of_step {s t : State} (h : step s = .next t) : Edge s t := by
  rcases step_cases h with ⟨hr, ht⟩ | ⟨hr, hs, hv, ht⟩ | ⟨hr, hs, hv, ht⟩ | ⟨hr, hs, hc, ht⟩ |
    ⟨hr, hs, hc, ht⟩ | ⟨hr, hs, hv, ht⟩ | ⟨hr, hs, hv, ht⟩
  case inr.inr.inr.inl =>
    obtain ⟨rsp, hrsp⟩ := sf32_answers s.config s.request
    cases ht.trans (exec_current_of_sf32 s.tick_config hrsp)
    exact .complete hr hs hc hrsp
  all_goals cases ht
  · exact .reset hr
  · exact .accept hr hs hv
  · exact .stayIdle hr hs hv
  · exact .countDown hr hs hc
  · exact .release hr hs hv
  · exact .stayDone hr hs hv

theorem step_of_edge {s t : State} (h : Edge s t) : step s = .next t := by
  cases h with
  | reset hr => simp [step, clockEdge, hr]
  | accept hr hs hv => simp [step, clockEdge, hr, hs, hv]
  | stayIdle hr hs hv => simp [step, clockEdge, hr, hs, hv]
  | complete hr hs hc h => simp [step, clockEdge, hr, hs, hc, exec_current_of_sf32 s.tick_config h]
  | countDown hr hs hc => simp [step, clockEdge, hr, hs, hc]
  | release hr hs hv => simp [step, clockEdge, hr, hs, hv]
  | stayDone hr hs hv => simp [step, clockEdge, hr, hs, hv]

/-! ### The invariant, one lemma per register update -/

theorem Config.one_le_latency {c : Config} (h : c.legal = true) : 1 ≤ c.latency := by
  simp only [Config.legal, Bool.and_eq_true, decide_eq_true_eq] at h
  exact h.2

theorem State.inv_applyReset {s : State} (h : s.config.legal = true) : s.applyReset.Inv where
  configLegal := h
  cntFits := Nat.two_pow_pos _
  idleCnt _ := rfl
  busyCnt hs := nomatch hs
  doneCnt _ := rfl
  doneResponse hs := nomatch hs
  errZero he := nomatch he

theorem State.Inv.tick {s : State} (h : s.Inv) : s.tick.Inv where
  configLegal := h.configLegal
  cntFits := h.cntFits
  idleCnt := h.idleCnt
  busyCnt := h.busyCnt
  doneCnt := h.doneCnt
  doneResponse := h.doneResponse
  errZero := h.errZero

theorem State.Inv.accept {s : State} (h : s.Inv) (r : Request) : (s.accept r).Inv where
  configLegal := h.configLegal
  cntFits := Nat.lt_log2_self
  idleCnt hs := nomatch hs
  busyCnt _ := ⟨Config.one_le_latency h.configLegal, le_rfl⟩
  doneCnt hs := nomatch hs
  doneResponse hs := nomatch hs
  errZero := h.errZero

theorem State.Inv.complete {s : State} (h : s.Inv) {rsp : Response}
    (hrsp : sf32 s.config s.request = .ok rsp) : (s.complete rsp.y rsp.err).Inv where
  configLegal := h.configLegal
  cntFits := Nat.two_pow_pos _
  idleCnt hs := nomatch hs
  busyCnt hs := nomatch hs
  doneCnt _ := rfl
  doneResponse _ := hrsp
  errZero := sf32_y_of_err hrsp

theorem State.Inv.countDown {s : State} (h : s.Inv) (hs : s.state = .busy) (hc : s.cnt ≠ 1) :
    s.countDown.Inv := by
  obtain ⟨hlow, hhigh⟩ := h.busyCnt hs
  have hfits := h.cntFits
  have hcnt : s.countDown.cnt = s.cnt - 1 := s.countDown_cnt (by omega)
  exact {
    configLegal := h.configLegal
    cntFits := by rw [hcnt, State.countDown_config]; omega
    idleCnt := fun hi => nomatch hs.symm.trans hi
    busyCnt := fun _ => by rw [hcnt, State.countDown_config]; omega
    doneCnt := fun hd => nomatch hs.symm.trans hd
    doneResponse := fun hd => nomatch hs.symm.trans hd
    errZero := h.errZero }

theorem State.Inv.release {s : State} (h : s.Inv) (hs : s.state = .done) : s.release.Inv where
  configLegal := h.configLegal
  cntFits := h.cntFits
  idleCnt _ := h.doneCnt hs
  busyCnt hb := nomatch hb
  doneCnt hd := nomatch hd
  doneResponse hd := nomatch hd
  errZero := h.errZero

/-- Settles O44: every row of the edge table is a register update that keeps the invariant. -/
theorem everyStepKeepsTheInvariant : Obligations.EveryStepKeepsTheInvariant := by
  intro s t h hstep
  cases edge_of_step hstep with
  | reset => exact State.inv_applyReset h.configLegal
  | accept => exact h.tick.accept _
  | stayIdle => exact h.tick
  | complete _ _ _ hrsp => exact h.tick.complete hrsp
  | countDown _ hs hc => exact h.tick.countDown hs hc
  | release _ hs _ => exact h.tick.release hs
  | stayDone => exact h.tick

/-- Settles O43: the reset state is what a reset edge leaves in a core with the default parameters. -/
theorem resetMeetsTheInvariant : Obligations.ResetMeetsTheInvariant :=
  State.inv_applyReset (s := State.reset) rfl

/-! ### What writes the registers -/

/-- `OP`, `A` and `B` change at a reset or an accepting edge only (10_state.md R18). -/
theorem Edge.request_cases {s t : State} (h : Edge s t) :
    t.request = s.request ∨ s.pins.rst = true ∨
      (s.state = .idle ∧ s.pins.reqValid = true ∧ t.request = s.pins.request) := by
  cases h with
  | reset hr => exact .inr (.inl hr)
  | accept _ hs hv => exact .inr (.inr ⟨hs, hv, rfl⟩)
  | _ => exact .inl rfl

/-- `Y` and `ERR` change at a reset or a completing edge only (10_state.md R19). -/
theorem Edge.response_cases {s t : State} (h : Edge s t) :
    (t.y = s.y ∧ t.err = s.err) ∨ s.pins.rst = true ∨
      (s.state = .busy ∧ s.cnt = 1 ∧ sf32 s.config s.request = .ok { y := t.y, err := t.err }) := by
  cases h with
  | reset hr => exact .inr (.inl hr)
  | complete _ hs hc hrsp => exact .inr (.inr ⟨hs, hc, hrsp⟩)
  | _ => exact .inl ⟨rfl, rfl⟩

/-- Settles O42: the writers are read off the edge table; the outputs do not mention `OP`, `A` and `B`. -/
theorem onlyAcceptanceAndCompletionWriteRegisters :
    Obligations.OnlyAcceptanceAndCompletionWriteRegisters := by
  intro s t hstep
  have hedge := edge_of_step hstep
  exact ⟨hedge.request_cases, hedge.response_cases, State.outputs_rspY t, State.outputs_rspErr t,
    fun _ _ _ => rfl⟩

/-- Settles O10: an instruction that answers a next state completes, and completion writes `Y`, `ERR`, `CNT`
and `STATE` only. -/
theorem completionLeavesRequestRegisters : Obligations.CompletionLeavesRequestRegisters := by
  intro i s t h
  obtain ⟨y, e, rfl⟩ := exec_next h
  simp

/-! ### The two waits: while busy, and while the host does not take the response -/

theorem runsTo_one {s t : State} (h : Edge s t) : RunsTo 1 s t :=
  (runsTo_succ 0 s t).mpr ⟨t, step_of_edge h, (runsTo_zero t t).mpr rfl⟩

/-- A busy core counts one down at every edge without reset, as long as `CNT` stays above 0. -/
theorem runsTo_of_busy {w ps : List Pins} {s : State} (hs : s.state = .busy) (hd : s.drive = w ++ ps)
    (hw : ∀ x ∈ w, x.rst = false) (hc : w.length < s.cnt) :
    RunsTo w.length s { s with cnt := s.cnt - w.length, drive := ps } := by
  induction w generalizing s with
  | nil =>
    obtain rfl : s.drive = ps := hd
    exact (runsTo_zero _ _).mpr rfl
  | cons x w ih =>
    rw [List.length_cons] at hc ⊢
    have hr : s.pins.rst = false := State.pins_of_drive hd ▸ hw x List.mem_cons_self
    have hdrive : s.tick.countDown.drive = w ++ ps := by simp [hd]
    have hcnt : s.tick.countDown.cnt = s.cnt - 1 := s.tick.countDown_cnt (by rw [s.tick_cnt]; omega)
    have hrest := ih (s := s.tick.countDown) hs hdrive (fun y hy => hw y (List.mem_cons_of_mem x hy))
      (by omega)
    rw [hcnt, Nat.sub_sub, Nat.add_comm 1] at hrest
    exact (runsTo_succ _ _ _).mpr ⟨_, step_of_edge (.countDown hr hs (by omega)), hrest⟩

/-- The response is held at every edge at which the host does not take it. -/
theorem runsTo_of_done {w ps : List Pins} {s : State} (hs : s.state = .done) (hd : s.drive = w ++ ps)
    (hw : ∀ x ∈ w, x.rst = false ∧ x.rspReady = false) : RunsTo w.length s { s with drive := ps } := by
  induction w generalizing s with
  | nil =>
    obtain rfl : s.drive = ps := hd
    exact (runsTo_zero _ _).mpr rfl
  | cons x w ih =>
    obtain ⟨hr, hv⟩ : s.pins.rst = false ∧ s.pins.rspReady = false :=
      State.pins_of_drive hd ▸ hw x List.mem_cons_self
    have hdrive : s.tick.drive = w ++ ps := by simp [hd]
    have hrest := ih (s := s.tick) hs hdrive fun y hy => hw y (List.mem_cons_of_mem x hy)
    exact (runsTo_succ _ _ _).mpr ⟨_, step_of_edge (.stayDone hr hs hv), hrest⟩

/-! ### One transaction on the pins -/

/-- The core `s` after it has accepted `r`, with `c` edges left to completion and the pins `ps` to come. -/
def State.counting (r : Request) (c : Nat) (ps : List Pins) (s : State) : State :=
  { s.accept r with cnt := c, drive := ps }

/-- The core `s` when it shows the response `rsp` to `r`, with the pins `ps` to come. -/
def State.answered (r : Request) (rsp : Response) (ps : List Pins) (s : State) : State :=
  { (s.accept r).complete rsp.y rsp.err with drive := ps }

section OfferedRequest

variable {s : State} {p : Pins} {w ps : List Pins}

/-- After acceptance, `w.length < LATENCY` edges leave the core busy. -/
theorem runsTo_counting (hs : s.state = .idle) (hd : s.drive = p :: (w ++ ps)) (hr : p.rst = false)
    (hv : p.reqValid = true) (hw : ∀ x ∈ w, x.rst = false) (hlen : w.length < s.config.latency) :
    RunsTo (1 + w.length) s (s.counting p.request (s.config.latency - w.length) ps) := by
  obtain rfl : s.pins = p := State.pins_of_drive hd
  have hdrive : (s.tick.accept s.pins.request).drive = w ++ ps := by simp [hd]
  exact runsTo_add (runsTo_one (.accept hr hs hv)) (runsTo_of_busy rfl hdrive hw hlen)

/-- The edge `LATENCY` edges after acceptance completes the request. -/
theorem runsTo_answered (hlegal : s.config.legal = true) (hs : s.state = .idle)
    (hd : s.drive = p :: (w ++ ps)) (hr : p.rst = false) (hv : p.reqValid = true)
    (hw : ∀ x ∈ w, x.rst = false) (hlen : w.length = s.config.latency) {rsp : Response}
    (hrsp : sf32 s.config p.request = .ok rsp) :
    RunsTo (1 + s.config.latency) s (s.answered p.request rsp ps) := by
  have hpos := Config.one_le_latency hlegal
  obtain rfl | ⟨w, x, rfl⟩ := w.eq_nil_or_concat
  · rw [← hlen] at hpos
    cases hpos
  · simp only [List.concat_eq_append, List.append_assoc, List.singleton_append, List.length_append,
      List.length_singleton, List.forall_mem_append, List.forall_mem_singleton] at hd hlen hw
    obtain ⟨hw, hx⟩ := hw
    have hcount := runsTo_counting hs hd hr hv hw (by omega)
    have hone : s.config.latency - w.length = 1 := by omega
    rw [hone] at hcount
    have hcomplete : RunsTo 1 (s.counting p.request 1 (x :: ps)) (s.answered p.request rsp ps) :=
      runsTo_one (.complete (s := s.counting p.request 1 (x :: ps)) hx rfl rfl hrsp)
    have hrun := runsTo_add hcount hcomplete
    rwa [Nat.add_assoc, hlen] at hrun

/-- A response taken at the coming edge ends the transaction. -/
theorem runsTo_served (r : Request) (rsp : Response) {q : Pins} (hr : q.rst = false)
    (hv : q.rspReady = true) :
    RunsTo 1 (s.answered r rsp (q :: ps)) { s.served r rsp with drive := ps } :=
  runsTo_one (.release (s := s.answered r rsp (q :: ps)) hr rfl hv)

/-- A response that stands while the host does not take it. -/
theorem runsTo_held (r : Request) (rsp : Response)
    (hw : ∀ x ∈ w, x.rst = false ∧ x.rspReady = false) :
    RunsTo w.length (s.answered r rsp (w ++ ps)) (s.answered r rsp ps) :=
  runsTo_of_done (s := s.answered r rsp (w ++ ps)) rfl rfl hw

end OfferedRequest

/-- Settles O45: the transaction is an acceptance, `LATENCY` counted edges of which the last completes, the
held response and the edge that takes it; an earlier cycle lies in a prefix of one of the two waits. -/
theorem protocolRefinesOneTransaction : Obligations.ProtocolRefinesOneTransaction := by
  intro s p q wait hold rest rsp hlegal hs hd hr hv hlen hwait hhold hqr hqv hrsp
  rw [List.append_assoc] at hd
  have hanswered := runsTo_answered hlegal hs hd hr hv hwait hlen hrsp
  refine ⟨fun k hk hkl => ?_, fun k hk => ?_, ?_⟩
  · have hpre : (wait.take (k - 1)).length = k - 1 := by rw [List.length_take]; omega
    rw [← wait.take_append_drop (k - 1), List.append_assoc] at hd
    have hcount := runsTo_counting hs hd hr hv (fun x hx => hwait x (List.mem_of_mem_take hx)) (by omega)
    rw [hpre, Nat.add_sub_cancel' hk] at hcount
    exact ⟨_, hcount, rfl⟩
  · have hpre : (hold.take k).length = k := List.length_take_of_le hk
    rw [← hold.take_append_drop k, List.append_assoc] at hanswered
    have hrun := runsTo_add hanswered
      (runsTo_held p.request rsp fun x hx => hhold x (List.mem_of_mem_take hx))
    rw [hpre] at hrun
    exact ⟨_, hrun, rfl⟩
  · have hheld := runsTo_add hanswered (runsTo_held p.request rsp hhold)
    have hrun := runsTo_add hheld (runsTo_served p.request rsp hqr hqv)
    have hedges : 1 + s.config.latency + hold.length + 1 = s.config.latency + hold.length + 2 := by omega
    rwa [hedges] at hrun

/-! ### Every list of requests -/

/-- One request of the host of `hostDrive` takes `LATENCY + 2` edges. -/
theorem runsTo_hostDrive {s : State} {r : Request} {rsp : Response} (hlegal : s.config.legal = true)
    (hs : s.state = .idle) (hrsp : sf32 s.config r = .ok rsp) (ps : List Pins) :
    RunsTo (s.config.latency + 2) { s with drive := hostDrive s.config.latency r ++ ps }
      { s.served r rsp with drive := ps } := by
  have hdrive : hostDrive s.config.latency r ++ ps =
      Pins.offer r :: (List.replicate s.config.latency Pins.quiet ++ Pins.take :: ps) := by
    simp [hostDrive]
  have hquiet : ∀ x ∈ List.replicate s.config.latency Pins.quiet, x.rst = false :=
    fun x hx => List.eq_of_mem_replicate hx ▸ Pins.quiet_rst
  have hanswered := runsTo_answered (s := { s with drive := hostDrive s.config.latency r ++ ps })
    hlegal hs hdrive rfl rfl hquiet List.length_replicate hrsp
  have hrun := runsTo_add hanswered (runsTo_served r rsp Pins.take_rst Pins.take_rspReady)
  rwa [show 1 + s.config.latency + 1 = s.config.latency + 2 by omega] at hrun

/-- Settles O46, by induction on the list of requests: after each the core is idle with the same
parameters. -/
theorem protocolRefinesEveryProgram : Obligations.ProtocolRefinesEveryProgram := by
  intro s rs hlegal hs
  induction rs generalizing s with
  | nil => exact ⟨s, rfl, (runsTo_zero _ _).mpr rfl⟩
  | cons r rs ih =>
    obtain ⟨rsp, hrsp⟩ := sf32_answers s.config r
    obtain ⟨t, ht, hrest⟩ := ih (s.served r rsp) hlegal rfl
    refine ⟨t, by rw [State.transactAll, State.transact_of_sf32 hrsp]; exact ht, ?_⟩
    have hfirst := runsTo_hostDrive hlegal hs hrsp (hostDriveAll s.config.latency rs ++ s.drive)
    rw [List.length_cons, Nat.mul_succ, Nat.add_comm, hostDriveAll, List.flatMap_cons, List.append_assoc]
    exact runsTo_add hfirst hrest

end Sys2Proof.Machine
end

section
/-! The obligations on the encoding (30_encoding.md R38, R39, R43): request words, nine-byte frames and
instructions, and the requests of the assembler operations (R44). -/

namespace Sys2Proof

/-! ### Requests and instructions -/

/-- Settles O1: the decoder's branch on `op` is the four clauses. -/
theorem opFieldSelectsTheInstruction : Obligations.OpFieldSelectsTheInstruction := by
  intro w
  refine ⟨?_, ?_, ?_, ?_⟩ <;> intro h <;> simp [decodeCmd, decodeRequest, requestOfCmd, h]

/-- Settles O49: each operation's op code selects its branch of the decoder. -/
theorem assemblerOperationsEncode : Obligations.AssemblerOperationsEncode := by
  intro a b
  exact ⟨rfl, rfl, rfl, rfl⟩

@[simp] theorem decodeRequest_request (i : Instr) : decodeRequest i.request = i := by
  cases i <;> rfl

@[simp] theorem request_decodeRequest (r : Request) : (decodeRequest r).request = r := by
  obtain ⟨op, a, b⟩ := r
  have hop : op = 0b00#2 ∨ op = 0b01#2 ∨ op = 0b10#2 ∨ op = 0b11#2 := by
    revert op; decide
  rcases hop with rfl | rfl | rfl | rfl <;> rfl

/-! ### Requests and request words -/

@[simp] theorem requestOfCmd_cmdOfRequest (r : Request) : requestOfCmd (cmdOfRequest r) = r := by
  obtain ⟨hop, ha, hb⟩ := Laws.CommandFields.fields_of_cmdOfRequest r
  simp only [requestOfCmd, hop, ha, hb]

@[simp] theorem cmdOfRequest_requestOfCmd (w : CmdWord) : cmdOfRequest (requestOfCmd w) = w := by
  apply BitVec.eq_of_getLsbD_eq
  grind [cmdOfRequest, requestOfCmd, cmdOp, cmdA, cmdB]

theorem decodeCmd_cmdOfRequest (r : Request) : decodeCmd (cmdOfRequest r) = decodeRequest r := by
  rw [decodeCmd, requestOfCmd_cmdOfRequest]

/-- Settles O4: both steps of the encoder, instruction to request and request to word, are invertible. -/
theorem requestWordsAndInstructionsCorrespond : Obligations.RequestWordsAndInstructionsCorrespond := by
  refine ⟨fun i => ?_, fun w => ?_⟩
  · rw [encode, decodeCmd_cmdOfRequest, decodeRequest_request]
  · rw [encode, decodeCmd, request_decodeRequest, cmdOfRequest_requestOfCmd]

/-! ### The opcode table -/

/-- The table's mask keeps the op field. -/
theorem cmdOp_and_opMask (w : CmdWord) : cmdOp (w &&& 0x30000000000000000#66) = cmdOp w := by
  have hmask : BitVec.extractLsb' 64 2 0x30000000000000000#66 = BitVec.allOnes 2 := by decide
  rw [cmdOp, BitVec.extractLsb'_and, hmask, BitVec.and_allOnes, cmdOp]

/-- Settles O2: a word that meets a row's match has the match's op field, which selects the instruction. -/
theorem opcodeTableRowsDecode : Obligations.OpcodeTableRowsDecode := by
  intro w
  obtain ⟨hadd, hmul, hdiv, hres⟩ := opFieldSelectsTheInstruction w
  have hop {m : CmdWord} (h : w &&& 0x30000000000000000#66 = m) : cmdOp w = cmdOp m :=
    h ▸ (cmdOp_and_opMask w).symm
  exact ⟨fun h => hadd (hop h), fun h => hmul (hop h), fun h => hdiv (hop h), fun h => hres (hop h)⟩

/-! ### Operands and their bytes -/

/-- A word from its four bytes, the first the least significant. -/
def wordOfBytes (b0 b1 b2 b3 : Byte) : Word := b3 ++ b2 ++ b1 ++ b0

theorem wordOfBytes_extract (x : Word) :
    wordOfBytes (x.extractLsb' 0 8) (x.extractLsb' 8 8) (x.extractLsb' 16 8) (x.extractLsb' 24 8) = x := by
  apply BitVec.eq_of_getLsbD_eq
  grind [wordOfBytes]

theorem extract_wordOfBytes (b0 b1 b2 b3 : Byte) :
    (wordOfBytes b0 b1 b2 b3).extractLsb' 0 8 = b0 ∧ (wordOfBytes b0 b1 b2 b3).extractLsb' 8 8 = b1 ∧
    (wordOfBytes b0 b1 b2 b3).extractLsb' 16 8 = b2 ∧ (wordOfBytes b0 b1 b2 b3).extractLsb' 24 8 = b3 := by
  refine ⟨?_, ?_, ?_, ?_⟩ <;> apply BitVec.eq_of_getLsbD_eq <;> grind [wordOfBytes]

/-! ### Frames -/

/-- The request in nine bytes. -/
def requestOfBytes (b0 b1 b2 b3 b4 b5 b6 b7 b8 : Byte) : Request where
  op := b8.setWidth 2
  a := wordOfBytes b4 b5 b6 b7
  b := wordOfBytes b0 b1 b2 b3

theorem cmdOfBytes_eq (b0 b1 b2 b3 b4 b5 b6 b7 b8 : Byte) :
    cmdOfBytes b0 b1 b2 b3 b4 b5 b6 b7 b8 = cmdOfRequest (requestOfBytes b0 b1 b2 b3 b4 b5 b6 b7 b8) := by
  apply BitVec.eq_of_getLsbD_eq
  grind [cmdOfBytes, cmdOfRequest, requestOfBytes, wordOfBytes]

/-- The ninth byte of an encoded frame passes the padding check. -/
theorem framePaddingClear_setWidth (op : OpCode) : framePaddingClear (op.setWidth 8) = true := by
  revert op; decide

/-- A ninth byte that passes the padding check is its op field and nothing else. -/
theorem setWidth_of_framePaddingClear {b : Byte} (h : framePaddingClear b = true) :
    (b.setWidth 2).setWidth 8 = b := by
  revert b; decide

/-- What a frame of nine bytes decodes to. -/
theorem decodeBytes_frame (b0 b1 b2 b3 b4 b5 b6 b7 b8 : Byte) (rest : List Byte) :
    decodeBytes (b0 :: b1 :: b2 :: b3 :: b4 :: b5 :: b6 :: b7 :: b8 :: rest) =
      if framePaddingClear b8 then
        .ok (decodeRequest (requestOfBytes b0 b1 b2 b3 b4 b5 b6 b7 b8), rest)
      else .error .paddingSet := by
  rw [decodeBytes, cmdOfBytes_eq, decodeCmd_cmdOfRequest]

/-- Everything a byte list that decodes can be; a list of fewer than nine bytes is an error, so only the first
pattern of the decoder is left. -/
theorem decodeBytes_ok {bytes rest : List Byte} {i : Instr} (h : decodeBytes bytes = .ok (i, rest)) :
    ∃ b0 b1 b2 b3 b4 b5 b6 b7 b8,
      bytes = b0 :: b1 :: b2 :: b3 :: b4 :: b5 :: b6 :: b7 :: b8 :: rest ∧
      framePaddingClear b8 = true ∧ i.request = requestOfBytes b0 b1 b2 b3 b4 b5 b6 b7 b8 := by
  match bytes, h with
  | b0 :: b1 :: b2 :: b3 :: b4 :: b5 :: b6 :: b7 :: b8 :: tail, h =>
    rw [decodeBytes_frame] at h
    split_ifs at h with hpad
    cases h
    exact ⟨b0, b1, b2, b3, b4, b5, b6, b7, b8, rfl, hpad, request_decodeRequest _⟩

/-- Settles O5: the operand bytes and the padded op byte are invertible, and so is the request they hold. -/
theorem framesDecodeToWhatWasEncoded : Obligations.FramesDecodeToWhatWasEncoded := by
  refine ⟨fun i rest => ?_, fun bytes rest i h => ?_⟩
  · simp only [encodeBytes, List.cons_append, List.nil_append]
    rw [decodeBytes_frame, if_pos (framePaddingClear_setWidth i.op)]
    have hop : (i.op.setWidth 8).setWidth 2 = i.op := by simp
    rw [requestOfBytes, wordOfBytes_extract, wordOfBytes_extract, hop]
    exact congrArg (fun i => Except.ok (i, rest)) (decodeRequest_request i)
  · obtain ⟨b0, b1, b2, b3, b4, b5, b6, b7, b8, rfl, hpad, hreq⟩ := decodeBytes_ok h
    have hop : i.op = b8.setWidth 2 := congrArg Request.op hreq
    have ha : i.a = wordOfBytes b4 b5 b6 b7 := congrArg Request.a hreq
    have hb : i.b = wordOfBytes b0 b1 b2 b3 := congrArg Request.b hreq
    simp [encodeBytes, hop, ha, hb, extract_wordOfBytes, setWidth_of_framePaddingClear hpad]

/-- Settles O3: the decoder computes on the five words. -/
theorem sampleRequestWordsDecode : Obligations.SampleRequestWordsDecode := by
  refine ⟨?_, ?_, ?_, ?_, ?_⟩ <;> decide

end Sys2Proof
end

section
/-! The obligation on decimal literals (30_encoding.md R40, R44): packing and unpacking are inverse, a normal
pattern is determined by its value, and the assembler's search tests exactly that value. -/

namespace Sys2Proof.Machine

/-! ### Packing and unpacking -/

theorem unpack_pack (s : Bool) (e : Int) (M : Nat) :
    unpack (pack s e M) = { s, e := expPack e, f := BitVec.ofNat 23 M } := by
  have hs : (pack s e M).getLsbD 31 = s := by
    grind [pack]
  have he : (pack s e M).extractLsb' 23 8 = expPack e := by
    apply BitVec.eq_of_getLsbD_eq
    grind [pack]
  have hf : (pack s e M).extractLsb' 0 23 = BitVec.ofNat 23 M := by
    apply BitVec.eq_of_getLsbD_eq
    grind [pack]
  simp only [unpack, hs, he, hf]

/-- The stored mantissa of a significand leaves out its hidden bit (30_encoding.md R41). -/
theorem ofNat_sig (f : BitVec 23) : BitVec.ofNat 23 (sig f) = f := by
  apply BitVec.eq_of_toNat_eq
  rw [BitVec.toNat_ofNat, sig_eq, Nat.add_mod_left, Nat.mod_eq_of_lt f.isLt]

theorem expPack_toNat_self (e : BitVec 8) : expPack e.toNat = e := by
  have h := expPack_toNat e.toNat
  have := e.isLt
  apply BitVec.eq_of_toNat_eq
  omega

theorem pack_unpack (w : Word) : pack (unpack w).s (unpack w).e.toNat (sig (unpack w).f) = w := by
  rw [pack, expPack_toNat_self, ofNat_sig]
  apply BitVec.eq_of_getLsbD_eq
  grind [unpack]

/-- The fields of a packed significand with an exponent field in range. -/
theorem unpack_pack_of_lt (s : Bool) {e M : Nat} (he : e < 256) (hlo : 2 ^ 23 ≤ M) (hhi : M < 2 ^ 24) :
    (unpack (pack s e M)).s = s ∧ (unpack (pack s e M)).e.toNat = e ∧ sig (unpack (pack s e M)).f = M := by
  rw [unpack_pack]
  have h := expPack_toNat e
  refine ⟨rfl, by dsimp only; omega, ?_⟩
  rw [sig_eq, BitVec.toNat_ofNat]
  omega

/-! ### Values of normal patterns -/

/-- A significand and its exponent are determined by their value. -/
theorem sig_exp_unique {e e' M M' : Nat} (hlo : 2 ^ 23 ≤ M) (hhi : M < 2 ^ 24) (hlo' : 2 ^ 23 ≤ M')
    (hhi' : M' < 2 ^ 24) (h : M * 2 ^ e = M' * 2 ^ e') : e = e' ∧ M = M' := by
  have hlog {N : Nat} (hlo : 2 ^ 23 ≤ N) (hhi : N < 2 ^ 24) (x : Nat) : Nat.log2 (N * 2 ^ x) = 23 + x := by
    rw [Nat.log2_eq_iff (by positivity), Nat.add_right_comm, Nat.pow_add, Nat.pow_add]
    exact ⟨Nat.mul_le_mul_right _ hlo, Nat.mul_lt_mul_of_pos_right hhi (by positivity)⟩
  have he : e = e' := by
    have := hlog hlo hhi e
    rw [h, hlog hlo' hhi' e'] at this
    omega
  subst he
  exact ⟨rfl, Nat.eq_of_mul_eq_mul_right (by positivity) h⟩

theorem ieeeValue_of_normal {w : Word} (h : NormalPattern w) :
    ieeeValue w =
      (if (unpack w).s then -1 else 1) * ((sig (unpack w).f : ℚ) * 2 ^ (unpack w).e.toNat / 2 ^ 150) := by
  have he : (unpack w).e ≠ 0#8 := fun h0 => by simp [NormalPattern, h0] at h
  have hpow : (2 : ℚ) ^ (((unpack w).e.toNat : ℤ) - 127) = 2 ^ (unpack w).e.toNat / 2 ^ 127 := by
    rw [zpow_sub₀ two_ne_zero]; norm_cast
  simp only [ieeeValue, if_neg he, workingValue, hpow, sig_eq]
  push_cast
  ring

/-- The literal `digits / 10^places` is the significand `M` with exponent field `e`, over the naturals. -/
def ExactLiteral (digits places e M : Nat) : Prop := digits * 2 ^ 150 = M * (10 ^ places * 2 ^ e)

/-- A normal pattern's IEEE value is a literal's exactly when its fields solve the literal's equation. -/
theorem ieeeValue_eq_literal_iff {w : Word} (h : NormalPattern w) (digits places : Nat) :
    ieeeValue w = (if (unpack w).s then -1 else 1) * ((digits : ℚ) / 10 ^ places) ↔
      ExactLiteral digits places (unpack w).e.toNat (sig (unpack w).f) := by
  have hsign : (if (unpack w).s then -1 else 1 : ℚ) ≠ 0 := by split <;> norm_num
  rw [ieeeValue_of_normal h, mul_right_inj' hsign, div_eq_div_iff (by positivity) (by positivity),
    ExactLiteral, mul_assoc, mul_comm (2 ^ _ : ℚ), eq_comm]
  norm_cast

/-! ### The assembler's search -/

/-- The search's test of the exponent field `e`, with the quotient `M` it then takes as significand. -/
theorem literal_test_iff (digits places e M : Nat) :
    (digits * 2 ^ 150 % (10 ^ places * 2 ^ e) = 0 ∧ digits * 2 ^ 150 / (10 ^ places * 2 ^ e) = M) ↔
      ExactLiteral digits places e M := by
  have hpos : 0 < 10 ^ places * 2 ^ e := by positivity
  rw [ExactLiteral]
  constructor
  · rintro ⟨hmod, rfl⟩
    exact (Nat.div_mul_cancel (Nat.dvd_of_mod_eq_zero hmod)).symm
  · intro h
    rw [h]
    exact ⟨Nat.mul_mod_left _ _, Nat.mul_div_cancel _ hpos⟩

/-- A pattern the search finds is made of an exponent field and a significand that solve the literal's
equation. -/
theorem decimalPattern_sound {neg : Bool} {digits places : Nat} {w : Word}
    (h : decimalPattern neg digits places = some w) :
    ∃ e M : Nat, 1 ≤ e ∧ e ≤ 254 ∧ 2 ^ 23 ≤ M ∧ M < 2 ^ 24 ∧ ExactLiteral digits places e M ∧
      w = pack neg e M := by
  obtain ⟨k, hk, hfound⟩ := List.exists_of_findSome?_eq_some h
  rw [List.mem_range] at hk
  simp only [Option.ite_none_right_eq_some, Option.some.injEq] at hfound
  obtain ⟨⟨hmod, hlo, hhi⟩, rfl⟩ := hfound
  exact ⟨k + 1, _, by omega, by omega, hlo, hhi, (literal_test_iff ..).mp ⟨hmod, rfl⟩, rfl⟩

/-- The search finds some pattern whenever the literal's equation has a solution in range. -/
theorem decimalPattern_complete (neg : Bool) {digits places e M : Nat} (h1 : 1 ≤ e) (h254 : e ≤ 254)
    (hlo : 2 ^ 23 ≤ M) (hhi : M < 2 ^ 24) (h : ExactLiteral digits places e M) :
    ∃ w, decimalPattern neg digits places = some w := by
  rw [← Option.isSome_iff_exists, decimalPattern, List.findSome?_isSome_iff]
  obtain ⟨hmod, rfl⟩ := (literal_test_iff ..).mpr h
  obtain ⟨k, rfl⟩ := Nat.exists_eq_add_of_le' h1
  refine ⟨k, List.mem_range.mpr (by omega), ?_⟩
  simp only [if_pos (And.intro hmod (And.intro hlo hhi)), Option.isSome_some]

theorem ExactLiteral.unique {digits places e e' M M' : Nat} (hlo : 2 ^ 23 ≤ M) (hhi : M < 2 ^ 24)
    (hlo' : 2 ^ 23 ≤ M') (hhi' : M' < 2 ^ 24) (h : ExactLiteral digits places e M)
    (h' : ExactLiteral digits places e' M') : e = e' ∧ M = M' := by
  refine sig_exp_unique hlo hhi hlo' hhi' (Nat.eq_of_mul_eq_mul_left (n := 10 ^ places) (by positivity) ?_)
  rw [Nat.mul_left_comm, Nat.mul_left_comm _ M']
  exact h.symm.trans h'

/-- Settles O50: what the search finds has the literal's value, and a normal pattern with that value is
what it finds, since no other exponent field and significand have it. -/
theorem decimalLiteralsAreExactNormals : Obligations.DecimalLiteralsAreExactNormals := by
  intro neg digits places w
  constructor
  · intro h
    obtain ⟨e, M, h1, h254, hlo, hhi, hexact, rfl⟩ := decimalPattern_sound h
    obtain ⟨hs, he, hM⟩ := unpack_pack_of_lt neg (by omega : e < 256) hlo hhi
    have hnormal : NormalPattern (pack neg e M) := by rw [NormalPattern, he]; exact ⟨h1, h254⟩
    have hvalue := (ieeeValue_eq_literal_iff hnormal digits places).mpr (by rwa [he, hM])
    rw [hs] at hvalue
    exact ⟨hnormal, hs, hvalue⟩
  · rintro ⟨hnormal, rfl, hvalue⟩
    have hexact := (ieeeValue_eq_literal_iff hnormal digits places).mp hvalue
    obtain ⟨h1, h254⟩ := hnormal
    have hlo := sig_lower (unpack w).f
    have hhi := sig_upper (unpack w).f
    obtain ⟨w', hw'⟩ := decimalPattern_complete (unpack w).s h1 h254 hlo hhi hexact
    obtain ⟨e, M, -, -, hlo', hhi', hexact', rfl⟩ := decimalPattern_sound hw'
    obtain ⟨rfl, rfl⟩ := hexact.unique hlo hhi hlo' hhi' hexact'
    rwa [pack_unpack] at hw'

end Sys2Proof.Machine
end

section
/-! The obligations on the bit-level primitives (40_primitives.md R46, R49 to R52): bit scan, sticky shift,
alignment, wide multiply and long division. -/

namespace Sys2Proof.Machine

/-! ### Bit scan -/

/-- Among `n` bits, the zeros above the most significant set bit and the bits up to it are all. -/
theorem clz_add_log2 {n v : Nat} (h0 : v ≠ 0) (hn : v < 2 ^ n) : clz n v + Nat.log2 v + 1 = n := by
  induction n with
  | zero => omega
  | succ n ih =>
    rw [clz]
    by_cases hge : 2 ^ n ≤ v
    · have hlog : Nat.log2 v = n := (Nat.log2_eq_iff h0).mpr ⟨hge, hn⟩
      have hbit : v.testBit n = true := hlog ▸ Nat.testBit_log2 h0
      rw [if_pos hbit]
      omega
    · have hlt : v < 2 ^ n := Nat.lt_of_not_le hge
      have hbit : v.testBit n = false := Nat.testBit_lt_two_pow hlt
      have := ih hlt
      rw [if_neg (by simp [hbit])]
      omega

/-- The shift loop counts the halvings down to 1, as the recursion of `log2` does. -/
theorem hsbLoop_eq_log2 {n v : Nat} (hn : v < 2 ^ (n + 1)) : hsbLoop n v = Nat.log2 v := by
  induction n generalizing v with
  | zero => rw [hsbLoop, Nat.log2_def, if_neg (by omega)]
  | succ n ih =>
    rw [hsbLoop, Nat.log2_def, Nat.shiftRight_eq_div_pow, Nat.pow_one]
    by_cases hv : v ≤ 1
    · rw [if_pos hv, if_neg (by omega)]
    · rw [if_neg hv, if_pos (by omega), ih (by omega)]

theorem log2_le_31 {v : Nat} (h0 : v ≠ 0) (h : v < 2 ^ 32) : Nat.log2 v ≤ 31 :=
  Nat.le_of_lt_succ ((Nat.log2_lt h0).mpr h)

/-- The count-leading-zeros implementation of the bit scan. -/
theorem log2_eq_sub_clz {v : Nat} (h0 : v ≠ 0) (h : v < 2 ^ 32) : Nat.log2 v = 31 - clz 32 v := by
  have := clz_add_log2 h0 h
  omega

/-- Settles O12: all three scans are `log2`. -/
theorem bitScanImplementationsAgree : Obligations.BitScanImplementationsAgree := by
  refine ⟨hsb_zero, fun v hpos hlt => ?_, fun u w => ⟨rfl, fun hw => ?_⟩⟩
  · have h0 : v ≠ 0 := Nat.ne_of_gt hpos
    refine ⟨Nat.log2 v, hsb_of_ne_zero h0, log2_le_31 h0 hlt, Nat.testBit_log2 h0, fun i hi => ?_,
      log2_eq_sub_clz h0 hlt, (hsbLoop_eq_log2 (by omega)).symm⟩
    exact (Nat.le_log2 h0).mpr (Nat.ge_two_pow_of_testBit hi)
  · have h0 : w.toNat ≠ 0 := fun h => hw (BitVec.eq_of_toNat_eq h)
    have hindex : (bitScanUnit u w).index = BitVec.ofNat 5 (Nat.log2 w.toNat) := by
      rw [log2_eq_sub_clz h0 w.isLt, bitScanUnit, if_neg hw]
    have hle := log2_le_31 h0 w.isLt
    rw [hindex, hsb_of_ne_zero h0, BitVec.toNat_ofNat, Nat.mod_eq_of_lt (by omega)]

/-! ### The sticky bit -/

/-- The bits of a number into which a flag is ORed. -/
theorem testBit_or_flag (x : Nat) (p : Prop) [Decidable p] (i : Nat) :
    (x ||| if p then 1 else 0).testBit i = (x.testBit i || (decide (i = 0) && decide p)) := by
  have hone : Nat.testBit 1 i = decide (i = 0) := by
    rw [Bool.eq_iff_iff, Nat.testBit_one_eq_true_iff_self_eq_zero, decide_eq_true_eq]
  by_cases hp : p <;> simp [hp, hone]

/-- ORing a flag into bit 0 adds at most 1. -/
theorem or_flag_le (x : Nat) (p : Prop) [Decidable p] : (x ||| if p then 1 else 0) ≤ x + 1 := by
  have hdiv : (x ||| 1) / 2 = x / 2 := by rw [Nat.or_div_two]; simp
  split
  · omega
  · simp

/-- The dropped bits are nonzero exactly when one of them is set. -/
theorem mod_two_pow_ne_zero_iff (v k : Nat) : v % 2 ^ k ≠ 0 ↔ ∃ j, j < k ∧ v.testBit j = true := by
  constructor
  · intro h
    obtain ⟨j, hj⟩ := Nat.exists_testBit_of_ne_zero h
    rw [Nat.testBit_mod_two_pow, Bool.and_eq_true, decide_eq_true_eq] at hj
    exact ⟨j, hj⟩
  · rintro ⟨j, hjk, hj⟩ h
    have hbit : (v % 2 ^ k).testBit j = true := by simp [Nat.testBit_mod_two_pow, hjk, hj]
    simp [h] at hbit

theorem testBit_shrSticky_of_pos (v k : Nat) {i : Nat} (hi : 1 ≤ i) :
    (shrSticky v k).testBit i = v.testBit (i + k) := by
  by_cases hk : k = 0
  · rw [hk, shrSticky_by_zero, Nat.add_zero]
  · have hi0 : i ≠ 0 := by omega
    rw [shrSticky_of_ne_zero v hk, testBit_or_flag, Nat.testBit_div_two_pow]
    simp [hi0]

theorem testBit_shrSticky_zero (v k : Nat) :
    (shrSticky v k).testBit 0 = true ↔ ∃ j, j ≤ k ∧ v.testBit j = true := by
  by_cases hk : k = 0
  · simp [hk]
  · rw [shrSticky_of_ne_zero v hk, testBit_or_flag, Nat.testBit_div_two_pow, Nat.zero_add,
      decide_eq_true rfl, Bool.true_and, Bool.or_eq_true, decide_eq_true_eq, mod_two_pow_ne_zero_iff]
    constructor
    · rintro (h | ⟨j, hj, h⟩)
      · exact ⟨k, le_rfl, h⟩
      · exact ⟨j, hj.le, h⟩
    · rintro ⟨j, hj, h⟩
      obtain rfl | hlt := hj.eq_or_lt
      · exact .inl h
      · exact .inr ⟨j, hlt, h⟩

theorem shrSticky_of_lt {v k : Nat} (h : v < 2 ^ k) : shrSticky v k = if v = 0 then 0 else 1 := by
  by_cases hk : k = 0
  · obtain rfl : v = 0 := by simpa [hk] using h
    simp
  · rw [shrSticky_of_ne_zero v hk, Nat.div_eq_of_lt h, Nat.mod_eq_of_lt h, Nat.zero_or, ite_not]

theorem shrSticky_le (v k : Nat) : shrSticky v k ≤ v / 2 ^ k + 1 := by
  by_cases hk : k = 0
  · simp [hk]
  · rw [shrSticky_of_ne_zero v hk]
    exact or_flag_le _ _

theorem shrSticky_le_self (v k : Nat) : shrSticky v k ≤ v := by
  by_cases hv : v < 2 ^ k
  · rw [shrSticky_of_lt hv]
    split <;> omega
  · by_cases hk : k = 0
    · simp [hk]
    · have hle := shrSticky_le v k
      have hdiv : v / 2 ^ k < v :=
        Nat.div_lt_self ((Nat.two_pow_pos k).trans_le (Nat.le_of_not_lt hv)) (Nat.one_lt_two_pow hk)
      omega

/-- Settles O16: the bits of the shift, and the shift that keeps none. -/
theorem stickyShiftCollectsDroppedBits : Obligations.StickyShiftCollectsDroppedBits :=
  ⟨shrSticky_by_zero, fun v k _ _ hi => testBit_shrSticky_of_pos v k hi,
    fun v k _ => testBit_shrSticky_zero v k, fun _ _ h => shrSticky_of_lt h⟩

/-! ### Alignment -/

/-- Sticky shifts one after the other are one: a bit dropped by the first reaches bit 0, and the second
keeps bit 0 set. -/
theorem shrSticky_shrSticky (v j k : Nat) : shrSticky (shrSticky v j) k = shrSticky v (j + k) := by
  apply Nat.eq_of_testBit_eq
  intro i
  rcases Nat.eq_zero_or_pos i with rfl | hi
  · rw [Bool.eq_iff_iff, testBit_shrSticky_zero, testBit_shrSticky_zero]
    constructor
    · rintro ⟨l, hl, h⟩
      rcases Nat.eq_zero_or_pos l with rfl | hpos
      · obtain ⟨l, hl', h⟩ := (testBit_shrSticky_zero v j).mp h
        exact ⟨l, by omega, h⟩
      · exact ⟨l + j, by omega, testBit_shrSticky_of_pos v j hpos ▸ h⟩
    · rintro ⟨l, hl, h⟩
      by_cases hlj : l ≤ j
      · exact ⟨0, k.zero_le, (testBit_shrSticky_zero v j).mpr ⟨l, hlj, h⟩⟩
      · refine ⟨l - j, by omega, ?_⟩
        rwa [testBit_shrSticky_of_pos v j (by omega), Nat.sub_add_cancel (by omega)]
  · rw [testBit_shrSticky_of_pos _ k hi, testBit_shrSticky_of_pos v j (by omega),
      testBit_shrSticky_of_pos v _ hi, Nat.add_assoc, Nat.add_comm k j]

/-- One step of the alignment loop is the sticky shift by 1. -/
theorem shrSticky_one (v : Nat) : shrSticky v 1 = v >>> 1 ||| v % 2 := by
  rw [shrSticky, if_neg one_ne_zero, Nat.pow_one]
  rcases Nat.mod_two_eq_zero_or_one v with h | h <;> simp [h]

theorem align_eq_shrSticky (v k : Nat) : align v k = shrSticky v k := by
  induction k generalizing v with
  | zero => rfl
  | succ k ih => rw [align_succ, ← shrSticky_one, ih, shrSticky_shrSticky, Nat.add_comm 1]

/-- Settles O17, by induction on the count; past the highest set bit only the sticky bit is left. -/
theorem alignmentIsTheStickyShift : Obligations.AlignmentIsTheStickyShift := by
  refine ⟨align_eq_shrSticky, fun v j k hv hjk => ?_⟩
  have hv' : v < 2 ^ k := hv.trans_le (Nat.pow_le_pow_right Nat.two_pos hjk)
  rw [align_eq_shrSticky, align_eq_shrSticky, shrSticky_of_lt hv, shrSticky_of_lt hv']

/-! ### Wide multiply -/

/-- The loop over `n` bits multiplies by the number they form. -/
theorem mulLoop_eq (a b n : Nat) : mulLoop a b n = a * (b % 2 ^ n) := by
  induction n with
  | zero => rw [mulLoop, Nat.pow_zero, Nat.mod_one, Nat.mul_zero]
  | succ n ih =>
    have hmod : b % 2 ^ (n + 1) = b % 2 ^ n + 2 ^ n * (b.testBit n).toNat := by
      rw [Nat.pow_succ, Nat.mod_mul, Nat.toNat_testBit]
    rw [mulLoop_succ, ih, hmod, Nat.shiftLeft_eq]
    cases b.testBit n <;> simp [Nat.mul_add]

theorem mulwide_eq (a b : Nat) : mulwide a b = .ok (a * b) := by
  by_cases hb : b = 0
  · rw [hb, mulwide_zero, Nat.mul_zero]
  · rw [mulwide_of_ne_zero a hb, mulLoop_eq, Nat.mod_eq_of_lt Nat.lt_log2_self]

/-- Settles O18: up to the highest set bit, the loop has taken all of `b`. -/
theorem wideProductIsExact : Obligations.WideProductIsExact :=
  by
  refine ⟨fun a b ha hb => ⟨mulwide_eq a b, ?_⟩, mulwide_zero⟩
  have := Nat.mul_lt_mul'' ha hb
  omega

/-! ### Long division -/

/-- The loop's invariant: quotient and remainder hold the dividend scaled by the steps taken, and the
remainder stays below `2V`. -/
theorem longdivLoop_spec {V n R Q : Nat} (hR : R < 2 * V) :
    (longdivLoop V n R Q).1 + 2 * V * (longdivLoop V n R Q).2 = (R + 2 * V * Q) * 2 ^ n ∧
      (longdivLoop V n R Q).1 < 2 * V := by
  induction n generalizing R Q with
  | zero => exact ⟨(Nat.mul_one _).symm, hR⟩
  | succ n ih =>
    rw [longdivLoop_succ, Nat.pow_succ', ← Nat.mul_assoc]
    have hQ : Q <<< 1 = 2 * Q := by rw [Nat.shiftLeft_eq]; omega
    split
    · next hge =>
      have hQ1 : Q <<< 1 ||| 1 = 2 * Q + 1 := by
        rw [hQ]; exact (Nat.two_pow_add_eq_or_of_lt (i := 1) Nat.one_lt_two Q).symm
      have hR1 : (R - V) <<< 1 + 2 * V * (2 * Q + 1) = (R + 2 * V * Q) * 2 := by
        obtain ⟨d, rfl⟩ := Nat.exists_eq_add_of_le hge
        rw [Nat.add_sub_cancel_left, Nat.shiftLeft_eq]
        ring
      rw [hQ1, ← hR1]
      exact ih (by rw [Nat.shiftLeft_eq]; omega)
    · next hlt =>
      have hR1 : R <<< 1 + 2 * V * (2 * Q) = (R + 2 * V * Q) * 2 := by
        rw [Nat.shiftLeft_eq]; ring
      rw [hQ, ← hR1]
      exact ih (by rw [Nat.shiftLeft_eq]; omega)

/-- The loop from a quotient of 0 divides `D * 2^n` by `V`; its remainder was shifted once more. -/
theorem longdivLoop_eq {V D : Nat} (n : Nat) (hD : D < 2 * V) :
    longdivLoop V (n + 1) D 0 = (2 * (D * 2 ^ n % V), D * 2 ^ n / V) := by
  obtain ⟨heq, hlt⟩ := longdivLoop_spec (n := n + 1) (Q := 0) hD
  have hscaled : (D + 2 * V * 0) * 2 ^ (n + 1) = 2 * (D * 2 ^ n) := by ring
  rw [hscaled] at heq
  obtain ⟨hq, hr⟩ := (Nat.div_mod_unique (by omega)).mpr ⟨heq, hlt⟩
  rw [Nat.mul_div_mul_left _ _ Nat.two_pos] at hq
  rw [Nat.mul_mod_mul_left] at hr
  exact Prod.ext hr.symm hq.symm

theorem longdiv_eq {V D : Nat} (n : Nat) (hD : D < 2 * V) :
    longdiv (n + 1) D V =
      .ok { q := D * 2 ^ n / V, st := if D * 2 ^ n % V ≠ 0 then 1 else 0 } := by
  rw [longdiv_of_ne_zero _ _ (by omega), longdivLoop_eq n hD]
  simp

/-- A ratio of significands, in `(1/2, 2)`, scaled by a power of two. -/
theorem scaled_ratio_bounds {D V : Nat} (n : Nat) (hV : V ≤ 2 * D) (hD : D < 2 * V) :
    2 ^ n ≤ D * 2 ^ (n + 1) / V ∧ D * 2 ^ (n + 1) / V < 2 ^ (n + 2) := by
  have hpos : 0 < 2 ^ n := Nat.two_pow_pos n
  rw [Nat.le_div_iff_mul_le (by omega), Nat.div_lt_iff_lt_mul (by omega), Nat.pow_succ, Nat.pow_add]
  constructor <;> nlinarith

/-- Settles O19, by the loop's invariant. -/
theorem longDivisionIsExact : Obligations.LongDivisionIsExact := by
  refine ⟨fun N D V hN hD hD' hV hV' => ?_, longdiv_zero⟩
  obtain ⟨n, rfl⟩ : ∃ n, N = n + 2 := ⟨N - 2, by omega⟩
  exact ⟨_, longdiv_eq (n + 1) (by omega), rfl, rfl, scaled_ratio_bounds n (by omega) (by omega)⟩

end Sys2Proof.Machine
end

section
/-! The obligations on normalization, rounding, finishing and packing (40_primitives.md R45, R47, R48, R53). -/

namespace Sys2Proof.Machine

/-! ### Normalization -/

/-- A shift with sticky keeps the bounds of a plain shift: a flag in bit 0 carries into no other bit. -/
theorem shrSticky_bounds {v k a b : Nat} (hlo : 2 ^ (a + k) ≤ v) (hhi : v < 2 ^ (b + k)) (hb : b ≠ 0) :
    2 ^ a ≤ shrSticky v k ∧ shrSticky v k < 2 ^ b := by
  by_cases hk : k = 0
  · subst hk
    exact ⟨hlo, hhi⟩
  · rw [Nat.pow_add] at hlo hhi
    have hpos := Nat.two_pow_pos k
    have hdiv : 2 ^ a ≤ v / 2 ^ k := (Nat.le_div_iff_mul_le hpos).mpr hlo
    have hdiv' : v / 2 ^ k < 2 ^ b := (Nat.div_lt_iff_lt_mul hpos).mpr hhi
    have hone : 1 < 2 ^ b := Nat.one_lt_two_pow hb
    rw [shrSticky_of_ne_zero v hk]
    exact ⟨hdiv.trans Nat.left_le_or, Nat.or_lt_two_pow hdiv' (by split <;> omega)⟩

theorem collapseLimit_ge (limit : CollapseShift) : 23 ≤ collapseLimit limit := by
  cases limit <;> decide

/-- A magnitude shifted left by `sh`, or right with sticky for a negative `sh`. -/
def window (m : Nat) (sh : Int) : Nat := if 0 < sh then m <<< sh.toNat else shrSticky m (-sh).toNat

theorem window_of_pos (m : Nat) {sh : Int} (h : 0 < sh) : window m sh = m * 2 ^ sh.toNat := by
  rw [window, if_pos h, Nat.shiftLeft_eq]

theorem window_of_nonpos (m : Nat) {sh : Int} (h : sh ≤ 0) : window m sh = shrSticky m (-sh).toNat :=
  if_neg (by omega)

@[simp] theorem window_zero (m : Nat) : window m 0 = m := rfl

/-- `normalize` moves the highest set bit to bit 26, if the shift is within the limit. -/
theorem normalize_eq_window (limit : CollapseShift) {m : Nat} (hm : m ≠ 0) :
    normalize limit m =
      if collapseLimit limit < 26 - (Nat.log2 m : Int) then .ok .collapsed
      else .ok (.normal (window m (26 - (Nat.log2 m : Int))) (26 - (Nat.log2 m : Int))) := by
  rw [normalize_of_ne_zero limit hm, window]
  split_ifs <;> rfl

theorem normalize_collapsed_iff (limit : CollapseShift) (m : Nat) :
    normalize limit m = .ok .collapsed ↔ m = 0 ∨ collapseLimit limit < 26 - (Nat.log2 m : Int) := by
  by_cases hm : m = 0
  · simp [hm]
  · rw [normalize_eq_window limit hm]
    split_ifs with hlim <;> simp [hm, hlim]

/-- Everything a window that `normalize` answers can be. -/
theorem normalize_normal_iff (limit : CollapseShift) (m w : Nat) (sh : Int) :
    normalize limit m = .ok (.normal w sh) ↔
      m ≠ 0 ∧ sh = 26 - (Nat.log2 m : Int) ∧ sh ≤ collapseLimit limit ∧ w = window m sh := by
  by_cases hm : m = 0
  · simp [hm]
  · rw [normalize_eq_window limit hm]
    constructor
    · intro h
      split_ifs at h with hlim
      · cases h
      · cases h
        exact ⟨hm, rfl, by omega, rfl⟩
    · rintro ⟨-, hsh, hlim, hw⟩
      rw [hw, hsh, if_neg (by omega)]

/-- The hidden bit of a window is bit 26. -/
theorem window_bounds {m : Nat} (hm : m ≠ 0) :
    2 ^ 26 ≤ window m (26 - (Nat.log2 m : Int)) ∧ window m (26 - (Nat.log2 m : Int)) < 2 ^ 27 := by
  have hlo := Nat.log2_self_le hm
  have hhi := Nat.lt_log2_self (n := m)
  generalize Nat.log2 m = h at hlo hhi
  by_cases hh : h < 26
  · obtain ⟨k, hk, hk'⟩ : ∃ k, 26 = h + k ∧ 27 = h + 1 + k := ⟨26 - h, by omega, by omega⟩
    have hsh : (26 - (h : Int)).toNat = k := by omega
    rw [window_of_pos m (by omega), hsh, hk, hk', Nat.pow_add, Nat.pow_add 2 (h + 1)]
    exact ⟨Nat.mul_le_mul_right _ hlo, Nat.mul_lt_mul_of_pos_right hhi (Nat.two_pow_pos k)⟩
  · obtain ⟨k, rfl⟩ : ∃ k, h = 26 + k := ⟨h - 26, by omega⟩
    have hsh : (-(26 - ((26 + k : Nat) : Int))).toNat = k := by omega
    rw [window_of_nonpos m (by omega), hsh]
    exact shrSticky_bounds hlo (by rwa [Nat.add_right_comm] at hhi) (by decide)

theorem normalize_window_bounds {limit : CollapseShift} {m w : Nat} {sh : Int}
    (h : normalize limit m = .ok (.normal w sh)) : 2 ^ 26 ≤ w ∧ w < 2 ^ 27 := by
  obtain ⟨hm, rfl, -, rfl⟩ := (normalize_normal_iff limit m w sh).mp h
  exact window_bounds hm

/-- Settles O14: the shift brings bit `log2 m` to bit 26, and the limits 23 and 26 are `log2 m` of 3 and 0. -/
theorem normalizeGivesAWindow : Obligations.NormalizeGivesAWindow := by
  refine ⟨fun limit m w sh _ h => ?_, fun m => ?_, fun m => ?_⟩
  · obtain ⟨hlo, hhi⟩ := normalize_window_bounds h
    obtain ⟨hm, hsh, hlim, rfl⟩ := (normalize_normal_iff limit m w sh).mp h
    have hlog : (26 - sh).toNat = Nat.log2 m := by omega
    exact ⟨hlo, hhi, hlog ▸ hsb_of_ne_zero hm, by omega, hlim, window_of_pos m, window_of_nonpos m⟩
  · rw [normalize_collapsed_iff, collapseLimit]
    by_cases hm : m = 0
    · simp [hm]
    · have := Nat.log2_lt (k := 3) hm
      omega
  · rw [normalize_collapsed_iff, collapseLimit]
    omega

/-! ### Rounding -/

theorem roundEven_eq_nearestEven (w : Nat) : roundEven w = nearestEven w 8 := by
  rw [roundEven_eq, nearestEven]
  have hiff : (w % 8 > 4 ∨ w % 8 = 4 ∧ w / 8 % 2 = 1) ↔
      (2 * (w % 8) > 8 ∨ 2 * (w % 8) = 8 ∧ w / 8 % 2 = 1) := by omega
  simp only [hiff]

/-- Rounding a window carries exactly from the last half unit below `2^27` on. -/
theorem roundEven_bounds {w : Nat} (hlo : 2 ^ 26 ≤ w) (hhi : w < 2 ^ 27) :
    2 ^ 23 ≤ roundEven w ∧ roundEven w ≤ 2 ^ 24 ∧ (roundEven w = 2 ^ 24 ↔ 2 ^ 27 - 4 ≤ w) := by
  rw [roundEven_eq]
  split <;> omega

/-- Rounding sees bit 2 and the bits above it, and whether bits 1 and 0 are both 0. -/
theorem roundEven_congr {w v : Nat} (hhigh : w / 4 = v / 4) (hlow : w % 4 = 0 ↔ v % 4 = 0) :
    roundEven w = roundEven v := by
  have hclean : w / 8 = v / 8 := by omega
  have hup : (w % 8 > 4 ∨ w % 8 = 4 ∧ v / 8 % 2 = 1) ↔ (v % 8 > 4 ∨ v % 8 = 4 ∧ v / 8 % 2 = 1) := by omega
  rw [roundEven_eq, roundEven_eq, hclean]
  simp only [hup]

/-- Settles O15: rounding and its reference take the same branch. -/
theorem roundingIsToNearestEven : Obligations.RoundingIsToNearestEven := by
  refine ⟨fun w hlo hhi => ?_, fun w v hhigh hlow => ?_⟩
  · obtain ⟨hr, hr', hcarry⟩ := roundEven_bounds hlo hhi
    refine ⟨roundEven_eq_nearestEven w, hr, hr', fun h => ?_⟩
    rw [Nat.shiftRight_eq_div_pow]
    omega
  · rw [Nat.shiftRight_eq_div_pow, Nat.shiftRight_eq_div_pow] at hhigh
    exact roundEven_congr hhigh hlow

/-! ### Finishing -/

/-- A significand re-extended by three bits rounds to itself. -/
theorem roundEven_shiftLeft (r : Nat) : roundEven (r <<< 3) = r := by
  rw [roundEven_eq, Nat.shiftLeft_eq]
  split <;> omega

/-- A re-extended significand is its own window. -/
theorem normalize_shiftLeft (limit : CollapseShift) {r : Nat} (hlo : 2 ^ 23 ≤ r) (hhi : r < 2 ^ 24) :
    normalize limit (r <<< 3) = .ok (.normal (r <<< 3) 0) := by
  have hpos : r <<< 3 ≠ 0 := by rw [Nat.shiftLeft_eq]; omega
  have hlog : Nat.log2 (r <<< 3) = 26 := by
    rw [Nat.log2_eq_iff hpos, Nat.shiftLeft_eq]; omega
  have := collapseLimit_ge limit
  rw [normalize_normal_iff, hlog]
  exact ⟨hpos, rfl, by omega, rfl⟩

/-- A rounding carry, re-extended, is normalized back to the least window. -/
theorem normalize_carry (limit : CollapseShift) :
    normalize limit (2 ^ 24 <<< 3) = .ok (.normal (2 ^ 26) (-1)) := by
  cases limit <;> rfl

/-- The passes of `finish` from a window `w` that was shifted by `sh`: the second one halves a carry and
changes nothing else. -/
def passes (w : Nat) (sh e : Int) : Passes :=
  if roundEven w = 2 ^ 24 then
    { w1 := w, sh1 := sh, r1 := 2 ^ 24, w2 := 2 ^ 26, sh2 := -1, r2 := 2 ^ 23, e2 := e - sh + 1 }
  else
    { w1 := w, sh1 := sh, r1 := roundEven w, w2 := roundEven w <<< 3, sh2 := 0, r2 := roundEven w,
      e2 := e - sh }

theorem passes_of_carry {w : Nat} (h : roundEven w = 2 ^ 24) (sh e : Int) :
    passes w sh e =
      { w1 := w, sh1 := sh, r1 := 2 ^ 24, w2 := 2 ^ 26, sh2 := -1, r2 := 2 ^ 23, e2 := e - sh + 1 } :=
  if_pos h

theorem passes_of_no_carry {w : Nat} (h : roundEven w ≠ 2 ^ 24) (sh e : Int) :
    passes w sh e =
      { w1 := w, sh1 := sh, r1 := roundEven w, w2 := roundEven w <<< 3, sh2 := 0, r2 := roundEven w,
        e2 := e - sh } :=
  if_neg h

@[simp] theorem passes_sh1 (w : Nat) (sh e : Int) : (passes w sh e).sh1 = sh := by
  unfold passes; split <;> rfl

theorem passes_sh2 (w : Nat) (sh e : Int) :
    (passes w sh e).sh2 = if roundEven w = 2 ^ 24 then -1 else 0 := by
  unfold passes; split <;> rfl

theorem passes_sh2_cases (w : Nat) (sh e : Int) : (passes w sh e).sh2 = -1 ∨ (passes w sh e).sh2 = 0 := by
  rw [passes_sh2]; split <;> simp

theorem passes_e2 (w : Nat) (sh e : Int) : (passes w sh e).e2 = e - sh - (passes w sh e).sh2 := by
  unfold passes; split <;> simp

theorem finish_of_collapsed {limit : CollapseShift} {m : Nat} (h : normalize limit m = .ok .collapsed)
    (e : Int) : finish limit m e = .ok .collapsed := by
  simp only [finish, h]

theorem finish_of_normal {limit : CollapseShift} {m w : Nat} {sh : Int}
    (h : normalize limit m = .ok (.normal w sh)) (e : Int) :
    finish limit m e = .ok (.normal (passes w sh e)) := by
  obtain ⟨hlo, hhi⟩ := normalize_window_bounds h
  obtain ⟨hr, hr', -⟩ := roundEven_bounds hlo hhi
  by_cases hcarry : roundEven w = 2 ^ 24
  · have hround : roundEven (2 ^ 26) = 2 ^ 23 := by decide
    simp only [finish, h, hcarry, normalize_carry, hround, passes_of_carry, Int.sub_neg]
  · simp only [finish, h, normalize_shiftLeft limit hr (by omega), roundEven_shiftLeft,
      passes_of_no_carry hcarry, Int.sub_zero]

/-- Everything `finish` can be when it does not collapse. -/
theorem finish_normal {limit : CollapseShift} {m : Nat} {e : Int} {p : Passes}
    (h : finish limit m e = .ok (.normal p)) :
    ∃ w sh, normalize limit m = .ok (.normal w sh) ∧ p = passes w sh e := by
  obtain ⟨r, hr⟩ := normalize_answers limit m
  cases r with
  | collapsed => cases h.symm.trans (finish_of_collapsed hr e)
  | normal w sh =>
    cases h.symm.trans (finish_of_normal hr e)
    exact ⟨w, sh, hr, rfl⟩

/-- Settles O20, by whether the first rounding carries. -/
theorem finishRoundsOnce : Obligations.FinishRoundsOnce := by
  refine fun limit m e _ => ⟨fun h => finish_of_collapsed h e, fun w sh h => ?_⟩
  obtain ⟨hlo, hhi⟩ := normalize_window_bounds h
  obtain ⟨hr, hr', -⟩ := roundEven_bounds hlo hhi
  refine ⟨passes w sh e, finish_of_normal h e, ?_⟩
  by_cases hcarry : roundEven w = 2 ^ 24
  · simp [passes_of_carry hcarry, hcarry]
  · rw [passes_of_no_carry hcarry]
    exact ⟨rfl, rfl, rfl, .inl rfl, by simpa using hcarry, fun h => absurd h hcarry, fun _ => ⟨rfl, rfl⟩, hr,
      by dsimp only; omega⟩

/-! ### Packing -/

/-- Settles O21: the fields of a pattern are what was packed, and packing them again gives the pattern. -/
theorem packingWritesTheThreeFields : Obligations.PackingWritesTheThreeFields := by
  refine ⟨fun s e M hlo hhi => ?_, pack_unpack⟩
  rw [unpack_pack]
  refine ⟨rfl, expPack_toNat e, ?_⟩
  rw [sig_eq, BitVec.toNat_ofNat]
  omega

end Sys2Proof.Machine
end

section
/-! The obligation on the ranges of intermediates (40_primitives.md R55): one lemma per row of its table, from
what each operator passes to `finish`. -/

namespace Sys2Proof.Machine

/-! ### `finish` on the ranges of the table -/

/-- A magnitude with its highest set bit at `h` of at least 3 is normalized, whatever the limit. -/
theorem normalize_of_range (limit : CollapseShift) {m h : Nat} (h3 : 3 ≤ h) (hlo : 2 ^ h ≤ m)
    (hhi : m < 2 ^ (h + 1)) : normalize limit m = .ok (.normal (window m (26 - h)) (26 - h)) := by
  have hm : m ≠ 0 := (Nat.two_pow_pos h).trans_le hlo |>.ne'
  have hlog : Nat.log2 m = h := (Nat.log2_eq_iff hm).mpr ⟨hlo, hhi⟩
  have := collapseLimit_ge limit
  rw [normalize_normal_iff, hlog]
  exact ⟨hm, rfl, by omega, rfl⟩

theorem finish_of_bit_25 (limit : CollapseShift) {m : Nat} (e : Int) (hlo : 2 ^ 25 ≤ m)
    (hhi : m < 2 ^ 26) : finish limit m e = .ok (.normal (passes (m * 2) 1 e)) := by
  have hwindow : window m 1 = m * 2 := window_of_pos m (by decide)
  rw [← hwindow]
  exact finish_of_normal (normalize_of_range limit (h := 25) (by decide) hlo hhi) e

theorem finish_of_bit_26 (limit : CollapseShift) {m : Nat} (e : Int) (hlo : 2 ^ 26 ≤ m)
    (hhi : m < 2 ^ 27) : finish limit m e = .ok (.normal (passes m 0 e)) :=
  finish_of_normal (normalize_of_range limit (h := 26) (by decide) hlo hhi) e

theorem finish_of_bit_27 (limit : CollapseShift) {m : Nat} (e : Int) (hlo : 2 ^ 27 ≤ m)
    (hhi : m < 2 ^ 28) : finish limit m e = .ok (.normal (passes (shrSticky m 1) (-1) e)) :=
  finish_of_normal (normalize_of_range limit (h := 27) (by decide) hlo hhi) e

/-- A value below the last half unit is rounded without a carry. -/
theorem passes_sh2_of_lt {w : Nat} (h : w < 2 ^ 27 - 4) (sh e : Int) : (passes w sh e).sh2 = 0 := by
  have hround : roundEven w ≠ 2 ^ 24 := by
    rw [roundEven_eq]
    split <;> omega
  rw [passes_sh2, if_neg hround]

/-- The rows of FADD with equal signs and of FMUL: a value just below `2^28` that is shifted right has no
half unit left to carry from. -/
theorem finish_of_bit_26_or_27 (limit : CollapseShift) {m : Nat} (e : Int) (hlo : 2 ^ 26 ≤ m)
    (hhi : m < 2 ^ 28 - 12) :
    ∃ p, finish limit m e = .ok (.normal p) ∧ (p.sh1 = -1 ∨ p.sh1 = 0) ∧ (p.sh2 = -1 ∨ p.sh2 = 0) ∧
      ¬(p.sh1 = -1 ∧ p.sh2 = -1) ∧ p.e2 = e - p.sh1 - p.sh2 ∧ (2 ^ 27 ≤ m → p.sh1 = -1) := by
  by_cases hm : m < 2 ^ 27
  · refine ⟨_, finish_of_bit_26 limit e hlo hm, .inr (passes_sh1 ..), passes_sh2_cases .., ?_, ?_, ?_⟩
    · simp
    · rw [passes_e2, passes_sh1]
    · omega
  · have hle := shrSticky_le m 1
    have hsh2 : (passes (shrSticky m 1) (-1) e).sh2 = 0 := passes_sh2_of_lt (by omega) _ _
    refine ⟨_, finish_of_bit_27 limit e (by omega) (by omega), .inl (passes_sh1 ..), .inr hsh2, ?_, ?_,
      fun _ => passes_sh1 ..⟩
    · simp [hsh2]
    · rw [passes_e2, passes_sh1]

/-! ### FADD -/

theorem wide_bounds (f : BitVec 23) : 2 ^ 26 ≤ wide f ∧ wide f ≤ 2 ^ 27 - 8 ∧ wide f % 8 = 0 := by
  have := f.isLt
  rw [wide_eq]
  omega

/-- The operand with the larger exponent field `E` is not shifted, the other one by at most `E`. -/
theorem addPath_operands (a b : Word) :
    ∃ f g k, k ≤ (addPath a b).E ∧ (addPath a b).E ≤ 255 ∧
      (((addPath a b).mA = wide f ∧ (addPath a b).mB = shrSticky (wide g) k) ∨
        ((addPath a b).mA = shrSticky (wide g) k ∧ (addPath a b).mB = wide f)) := by
  have ha := (unpack a).e.isLt
  have hb := (unpack b).e.isLt
  rcases le_or_gt (unpack b).e.toNat (unpack a).e.toNat with h | h
  · obtain ⟨hA, hB, hE⟩ := addPath_of_le h
    rw [align_eq_shrSticky] at hB
    exact ⟨_, _, _, by rw [hE]; exact Nat.sub_le _ _, by omega, .inl ⟨hA, hB⟩⟩
  · obtain ⟨hA, hB, hE⟩ := addPath_of_lt h
    rw [align_eq_shrSticky] at hA
    exact ⟨_, _, _, by rw [hE]; exact Nat.sub_le _ _, by omega, .inr ⟨hA, hB⟩⟩

theorem addPath_E_le (a b : Word) : (addPath a b).E ≤ 255 := by
  obtain ⟨_, _, _, -, hE, -⟩ := addPath_operands a b
  exact hE

/-- The sum of equal signs; with `E = 0` neither operand is shifted, and the sum has bit 27. -/
theorem addPath_sum_bounds {a b : Word} (h : (unpack a).s = (unpack b).s) :
    2 ^ 26 ≤ (addPath a b).m ∧ (addPath a b).m ≤ 2 ^ 28 - 16 ∧
      ((addPath a b).E = 0 → 2 ^ 27 ≤ (addPath a b).m) := by
  obtain ⟨f, g, k, hk, -, hops⟩ := addPath_operands a b
  obtain ⟨hm, -⟩ := addPath_same_sign h
  have hf := wide_bounds f
  have hg := wide_bounds g
  have hle := shrSticky_le_self (wide g) k
  have hzero : (addPath a b).E = 0 → shrSticky (wide g) k = wide g := fun hE => by
    obtain rfl : k = 0 := by omega
    exact shrSticky_by_zero _
  omega

theorem addPath_difference {a b : Word} (h : (unpack a).s ≠ (unpack b).s) :
    (addPath a b).m = ((addPath a b).mA - (addPath a b).mB : Int).natAbs := by
  obtain ⟨hm, -⟩ := addPath_signs_differ h
  rw [hm]
  split <;> omega

/-- A difference is far from `2^27`, and below 8 it is 0 or 4: without a shift it is a multiple of 8, after a
shift by 1 a multiple of 4, and after a longer shift it is large. -/
theorem addPath_difference_bounds {a b : Word} (h : (unpack a).s ≠ (unpack b).s) :
    (addPath a b).m ≤ 2 ^ 27 - 8 ∧
      ((addPath a b).m < 8 → (addPath a b).m = 0 ∨ ((addPath a b).m = 4 ∧ 1 ≤ (addPath a b).E)) := by
  obtain ⟨f, g, k, hk, -, hops⟩ := addPath_operands a b
  have hm := addPath_difference h
  have hf := wide_bounds f
  have hg := wide_bounds g
  have hle := shrSticky_le_self (wide g) k
  refine ⟨by omega, fun hlt => ?_⟩
  match k with
  | 0 =>
    rw [shrSticky_by_zero] at hops
    omega
  | 1 =>
    have hhalf : shrSticky (wide g) 1 = wide g / 2 := by
      rw [shrSticky_one, Nat.shiftRight_eq_div_pow]
      have : wide g % 2 = 0 := by omega
      simp [this]
    omega
  | k + 2 =>
    have hquarter : shrSticky (wide g) (k + 2) ≤ wide g / 2 ^ 2 + 1 := by
      rw [Nat.add_comm, ← shrSticky_shrSticky]
      exact (shrSticky_le_self _ k).trans (shrSticky_le _ 2)
    omega

/-- The row of FADD with equal signs. -/
theorem fadd_ranges_same_sign (limit : CollapseShift) {a b : Word} (h : (unpack a).s = (unpack b).s) :
    2 ^ 26 ≤ (addPath a b).m ∧ (addPath a b).m < 2 ^ 28 ∧
      ∃ p, finish limit (addPath a b).m (addPath a b).E = .ok (.normal p) ∧
        (p.sh1 = -1 ∨ p.sh1 = 0) ∧ (p.sh2 = -1 ∨ p.sh2 = 0) ∧ ¬(p.sh1 = -1 ∧ p.sh2 = -1) ∧
        1 ≤ p.e2 ∧ p.e2 ≤ 256 := by
  obtain ⟨hlo, hhi, hzero⟩ := addPath_sum_bounds h
  obtain ⟨p, hp, hsh1, hsh2, hnot, he2, hbit⟩ :=
    finish_of_bit_26_or_27 limit (addPath a b).E hlo (by omega)
  have hE := addPath_E_le a b
  exact ⟨hlo, by omega, p, hp, hsh1, hsh2, hnot, by omega, by omega⟩

/-- The row of FADD with different signs: a shift of 0 leaves a value too small to carry, and a shift of more
than 23, of the magnitude 4, has `E >= 1`. -/
theorem fadd_ranges_signs_differ (limit : CollapseShift) {a b : Word}
    (h : (unpack a).s ≠ (unpack b).s) :
    (addPath a b).m < 2 ^ 27 ∧
      ∀ p, finish limit (addPath a b).m (addPath a b).E = .ok (.normal p) →
        0 ≤ p.sh1 ∧ p.sh1 ≤ collapseLimit limit ∧ (p.sh2 = -1 ∨ p.sh2 = 0) ∧
        (p.sh2 = -1 → 1 ≤ p.sh1) ∧ -23 ≤ p.e2 ∧ p.e2 ≤ 255 := by
  obtain ⟨hhi, hsmall⟩ := addPath_difference_bounds h
  refine ⟨by omega, fun p hp => ?_⟩
  obtain ⟨w, sh, hnorm, rfl⟩ := finish_normal hp
  obtain ⟨hm, hsh, hlim, rfl⟩ := (normalize_normal_iff ..).mp hnorm
  have hE := addPath_E_le a b
  have hlog : Nat.log2 (addPath a b).m ≤ 26 := Nat.le_of_lt_succ ((Nat.log2_lt hm).mpr (by omega))
  have hlog2 := Nat.le_log2 (k := 2) hm
  have hlog3 := Nat.le_log2 (k := 3) hm
  have hsh2 := passes_sh2_cases (window (addPath a b).m sh) sh (addPath a b).E
  have hcarry : (passes (window (addPath a b).m sh) sh (addPath a b).E).sh2 = -1 → 1 ≤ sh := by
    intro hc
    by_contra hlt
    obtain rfl : sh = 0 := by omega
    rw [window_zero, passes_sh2_of_lt (by omega)] at hc
    omega
  rw [passes_e2, passes_sh1]
  refine ⟨by omega, hlim, hsh2, hcarry, by omega, by omega⟩

/-! ### FMUL -/

/-- The datapath of FMUL holds the exact product of the significands. -/
theorem mulPath_eq_product (a b : Word) :
    mulPath a b = .ok
      { P := sig (unpack a).f * sig (unpack b).f
        W := shrSticky (sig (unpack a).f * sig (unpack b).f) 20
        E := unbias (unpack a).e + unbias (unpack b).e + 127
        s := (unpack a).s ^^ (unpack b).s } := by
  simp only [mulPath, mulwide_eq]

theorem unbias_bounds (e : BitVec 8) : -127 ≤ unbias e ∧ unbias e ≤ 128 := by
  have := e.isLt
  rw [unbias]
  omega

theorem mulWindow_bounds (f g : BitVec 23) :
    2 ^ 26 ≤ shrSticky (sig f * sig g) 20 ∧ shrSticky (sig f * sig g) 20 < 2 ^ 28 - 12 := by
  have hlo := Nat.mul_le_mul (sig_lower f) (sig_lower g)
  have hhi := Nat.mul_le_mul (Nat.le_sub_one_of_lt (sig_upper f)) (Nat.le_sub_one_of_lt (sig_upper g))
  have hbounds := shrSticky_bounds (v := sig f * sig g) (k := 20) (a := 26) (b := 28) hlo (by omega)
    (by decide)
  have hle := shrSticky_le (sig f * sig g) 20
  omega

/-- The row of FMUL. -/
theorem fmul_ranges (limit : CollapseShift) (a b : Word) :
    ∃ q, mulPath a b = .ok q ∧ 2 ^ 26 ≤ q.W ∧ q.W < 2 ^ 28 ∧ -127 ≤ q.E ∧ q.E ≤ 383 ∧
      ∃ p, finish limit q.W q.E = .ok (.normal p) ∧
        (p.sh1 = -1 ∨ p.sh1 = 0) ∧ (p.sh2 = -1 ∨ p.sh2 = 0) ∧ ¬(p.sh1 = -1 ∧ p.sh2 = -1) ∧
        -127 ≤ p.e2 ∧ p.e2 ≤ 384 := by
  have hea := unbias_bounds (unpack a).e
  have heb := unbias_bounds (unpack b).e
  obtain ⟨hlo, hhi⟩ := mulWindow_bounds (unpack a).f (unpack b).f
  obtain ⟨p, hp, hsh1, hsh2, hnot, he2, -⟩ := finish_of_bit_26_or_27 limit
    (unbias (unpack a).e + unbias (unpack b).e + 127) hlo hhi
  refine ⟨_, mulPath_eq_product a b, hlo, by dsimp only; omega, by dsimp only; omega,
    by dsimp only; omega, p, hp, hsh1, hsh2, hnot, by omega, by omega⟩

/-! ### FDIV -/

/-- The window of FDIV: 27 bits of the ratio, with a sticky bit for the rest (43_divide.md R71). -/
def divWindow (D V : Nat) : Nat := D * 2 ^ 26 / V ||| (if D * 2 ^ 26 % V ≠ 0 then 1 else 0)

/-- What a longer quotient drops, with its remainder, is the remainder of the shorter one. -/
theorem mod_ne_zero_iff_of_scaled (n k : Nat) {V : Nat} (hV : V ≠ 0) :
    n % V ≠ 0 ↔ n * 2 ^ k / V % 2 ^ k ≠ 0 ∨ n * 2 ^ k % V ≠ 0 := by
  have hsplit : n % V * 2 ^ k = n * 2 ^ k % V + V * (n * 2 ^ k / V % 2 ^ k) := by
    rw [← Nat.mod_mul, Nat.mul_mod_mul_right]
  have hpow := (Nat.two_pow_pos k).ne'
  rw [← not_iff_not, not_or, not_not, not_not, not_not]
  constructor
  · intro h
    rw [h, Nat.zero_mul] at hsplit
    obtain ⟨hr, hq⟩ := Nat.add_eq_zero_iff.mp hsplit.symm
    exact ⟨(Nat.mul_eq_zero.mp hq).resolve_left hV, hr⟩
  · rintro ⟨hq, hr⟩
    rw [hq, hr] at hsplit
    exact (Nat.mul_eq_zero.mp hsplit).resolve_right hpow

theorem flag_or_flag (p q : Prop) [Decidable p] [Decidable q] :
    ((if p then 1 else 0) ||| (if q then 1 else 0) : Nat) = if p ∨ q then 1 else 0 := by
  by_cases hp : p <;> by_cases hq : q <;> simp [hp, hq]

/-- `k` more quotient bits, shifted out with sticky, leave the quotient and its remainder flag as they
were. -/
theorem shrSticky_quotient (n k : Nat) {V : Nat} (hV : V ≠ 0) :
    (shrSticky (n * 2 ^ k / V) k ||| if n * 2 ^ k % V ≠ 0 then 1 else 0) =
      n / V ||| if n % V ≠ 0 then 1 else 0 := by
  by_cases hk : k = 0
  · simp [hk]
  · rw [shrSticky_of_ne_zero _ hk, Nat.div_div_eq_div_mul, Nat.mul_div_mul_right _ _ (Nat.two_pow_pos k),
      Nat.lor_assoc, flag_or_flag]
    simp only [← mod_ne_zero_iff_of_scaled n k hV]

/-- The datapath of FDIV: the window does not depend on the iteration count. -/
theorem divPath_eq {N : Nat} (hN : 27 ≤ N) (a b : Word) :
    divPath N a b = .ok
      { Q := sig (unpack a).f * 2 ^ (N - 1) / sig (unpack b).f
        st := if sig (unpack a).f * 2 ^ (N - 1) % sig (unpack b).f ≠ 0 then 1 else 0
        W := divWindow (sig (unpack a).f) (sig (unpack b).f)
        E := unbias (unpack a).e - unbias (unpack b).e + 127
        s := (unpack a).s ^^ (unpack b).s } := by
  obtain ⟨k, rfl⟩ : ∃ k, N = 26 + k + 1 := ⟨N - 27, by omega⟩
  have hD := sig_upper (unpack a).f
  have hV := sig_lower (unpack b).f
  have hk : 26 + k + 1 - 27 = k := by omega
  have hpow : sig (unpack a).f * 2 ^ (26 + k) = sig (unpack a).f * 2 ^ 26 * 2 ^ k := by
    rw [Nat.pow_add, Nat.mul_assoc]
  have hW := shrSticky_quotient (sig (unpack a).f * 2 ^ 26) k (sig_ne_zero (unpack b).f)
  simp only [divPath, longdiv_eq (26 + k) (show sig (unpack a).f < 2 * sig (unpack b).f by omega),
    Nat.add_sub_cancel, hk, hpow, hW, divWindow]

section Significands

variable {D V : Nat} (hD : 2 ^ 23 ≤ D) (hD' : D < 2 ^ 24) (hV : 2 ^ 23 ≤ V) (hV' : V < 2 ^ 24)
include hD hD' hV hV'

/-- A ratio below 1 has bit 25, and is far enough from 1 for its double not to carry. -/
theorem divWindow_of_lt (h : D < V) : 2 ^ 25 ≤ divWindow D V ∧ divWindow D V ≤ 2 ^ 26 - 4 := by
  have hlo : 2 ^ 25 ≤ D * 2 ^ 26 / V := (Nat.le_div_iff_mul_le (by omega)).mpr (by omega)
  have hhi : D * 2 ^ 26 / V < 2 ^ 26 - 4 := (Nat.div_lt_iff_lt_mul (by omega)).mpr (by omega)
  exact ⟨hlo.trans Nat.left_le_or, (or_flag_le _ _).trans hhi⟩

/-- A ratio of at least 1 has bit 26, and is far enough from 2 not to carry. -/
theorem divWindow_of_le (h : V ≤ D) : 2 ^ 26 ≤ divWindow D V ∧ divWindow D V ≤ 2 ^ 27 - 7 := by
  have hlo : 2 ^ 26 ≤ D * 2 ^ 26 / V := (Nat.le_div_iff_mul_le (by omega)).mpr (by omega)
  have hhi : D * 2 ^ 26 / V < 2 ^ 27 - 7 := (Nat.div_lt_iff_lt_mul (by omega)).mpr (by omega)
  exact ⟨hlo.trans Nat.left_le_or, (or_flag_le _ _).trans hhi⟩

/-- What `finish` makes of FDIV's window. -/
theorem finish_divWindow (limit : CollapseShift) (e : Int) :
    ∃ p, finish limit (divWindow D V) e = .ok (.normal p) ∧ p.sh2 = 0 ∧ p.e2 = e - p.sh1 ∧
      (V ≤ D → p.sh1 = 0) ∧ (D < V → p.sh1 = 1) := by
  rcases Nat.lt_or_ge D V with h | h
  · obtain ⟨hlo, hhi⟩ := divWindow_of_lt hD hD' hV hV' h
    have hsh2 := passes_sh2_of_lt (w := divWindow D V * 2) (by omega) 1 e
    refine ⟨_, finish_of_bit_25 limit e hlo (by omega), hsh2, ?_, by omega, fun _ => passes_sh1 ..⟩
    rw [passes_e2, passes_sh1, hsh2, Int.sub_zero]
  · obtain ⟨hlo, hhi⟩ := divWindow_of_le hD hD' hV hV' h
    have hsh2 := passes_sh2_of_lt (w := divWindow D V) (by omega) 0 e
    refine ⟨_, finish_of_bit_26 limit e hlo (by omega), hsh2, ?_, fun _ => passes_sh1 .., by omega⟩
    rw [passes_e2, passes_sh1, hsh2, Int.sub_zero]

theorem divWindow_bounds : 2 ^ 25 ≤ divWindow D V ∧ divWindow D V < 2 ^ 27 := by
  rcases Nat.lt_or_ge D V with h | h
  · have := divWindow_of_lt hD hD' hV hV' h
    omega
  · have := divWindow_of_le hD hD' hV hV' h
    omega

end Significands

/-- The row of FDIV. -/
theorem fdiv_ranges (limit : CollapseShift) {N : Nat} (hN : 27 ≤ N) (a b : Word) :
    ∃ q, divPath N a b = .ok q ∧ 2 ^ 25 ≤ q.W ∧ q.W < 2 ^ 27 ∧ -128 ≤ q.E ∧ q.E ≤ 382 ∧
      ∃ p, finish limit q.W q.E = .ok (.normal p) ∧
        (p.sh1 = 0 ∨ p.sh1 = 1) ∧ p.sh2 = 0 ∧ -129 ≤ p.e2 ∧ p.e2 ≤ 382 := by
  have hea := unbias_bounds (unpack a).e
  have heb := unbias_bounds (unpack b).e
  obtain ⟨hlo, hhi⟩ := divWindow_bounds (sig_lower (unpack a).f) (sig_upper (unpack a).f)
    (sig_lower (unpack b).f) (sig_upper (unpack b).f)
  obtain ⟨p, hp, hsh2, he2, hle, hlt⟩ := finish_divWindow (sig_lower (unpack a).f)
    (sig_upper (unpack a).f) (sig_lower (unpack b).f) (sig_upper (unpack b).f) limit
    (unbias (unpack a).e - unbias (unpack b).e + 127)
  have hsh1 : p.sh1 = 0 ∨ p.sh1 = 1 := (le_or_gt (sig (unpack b).f) (sig (unpack a).f)).imp hle hlt
  exact ⟨_, divPath_eq hN a b, hlo, hhi, by dsimp only; omega, by dsimp only; omega, p, hp, hsh1, hsh2,
    by omega, by omega⟩

/-- Settles O22, row by row of R55's table. -/
theorem intermediatesStayInRange : Obligations.IntermediatesStayInRange := by
  intro a b limit N hN
  exact ⟨fadd_ranges_same_sign limit, fadd_ranges_signs_differ limit, addPath_E_le a b,
    fmul_ranges limit a b, fdiv_ranges limit (by omega) a b⟩

end Sys2Proof.Machine
end

section
/-! Rounding once (40_primitives.md R47 to R50, R53): what `finish` makes of a magnitude is the reference's
rounding of it, and the reference sees no difference between an exact value and one whose dropped bits were
collected in a sticky bit. -/

namespace Sys2Proof.Machine

/-! ### Nearest even -/

theorem nearestEven_scale (n d : Nat) {c : Nat} (hc : 0 < c) : nearestEven (n * c) (d * c) = nearestEven n d := by
  have hgt : 2 * (n % d * c) > d * c ↔ 2 * (n % d) > d := by
    rw [← Nat.mul_assoc]; exact Nat.mul_lt_mul_right hc
  have heq : 2 * (n % d * c) = d * c ↔ 2 * (n % d) = d := by
    rw [← Nat.mul_assoc]; exact Nat.mul_left_inj hc.ne'
  simp only [nearestEven, Nat.mul_mod_mul_right, Nat.mul_div_mul_right _ _ hc, hgt, heq]

/-- Only the ratio of the two numbers matters. -/
theorem nearestEven_congr {n d n' d' : Nat} (hd : 0 < d) (hd' : 0 < d') (h : n * d' = n' * d) :
    nearestEven n d = nearestEven n' d' := by
  rw [← nearestEven_scale n d hd', h, Nat.mul_comm d d', nearestEven_scale n' d' hd]

/-- Below the midpoint. -/
theorem nearestEven_of_lt {d r : Nat} (q : Nat) (h : 2 * r < d) : nearestEven (d * q + r) d = q := by
  have hmod : (d * q + r) % d = r := by rw [Nat.mul_add_mod, Nat.mod_eq_of_lt (by omega)]
  have hdiv : (d * q + r) / d = q := by
    rw [Nat.mul_add_div (by omega), Nat.div_eq_of_lt (by omega), Nat.add_zero]
  rw [nearestEven, hmod, hdiv, if_neg (by omega)]

/-- Above the midpoint. -/
theorem nearestEven_of_gt {d r : Nat} (q : Nat) (h : d < 2 * r) (hr : r < d) :
    nearestEven (d * q + r) d = q + 1 := by
  have hmod : (d * q + r) % d = r := by rw [Nat.mul_add_mod, Nat.mod_eq_of_lt hr]
  have hdiv : (d * q + r) / d = q := by
    rw [Nat.mul_add_div (by omega), Nat.div_eq_of_lt hr, Nat.add_zero]
  rw [nearestEven, hmod, hdiv, if_pos (by omega)]

/-! ### Values with a sticky bit -/

/-- `w` stands for `x / d`: it is the quotient, or it is odd and less than 1 away from it. -/
def RoundsToOdd (x : Int) (d : Nat) (w : Int) : Prop :=
  x = w * d ∨ (w % 2 = 1 ∧ w * d < x + d ∧ x < w * d + d)

theorem RoundsToOdd.neg {x : Int} {d : Nat} {w : Int} (h : RoundsToOdd x d w) : RoundsToOdd (-x) d (-w) := by
  rcases h with h | ⟨hodd, hlo, hhi⟩
  · exact .inl (by rw [h, Int.neg_mul])
  · exact .inr ⟨by omega, by rw [Int.neg_mul]; omega, by rw [Int.neg_mul]; omega⟩

theorem RoundsToOdd.add_even {x : Int} {d : Nat} {w : Int} (h : RoundsToOdd x d w) (a : Int) :
    RoundsToOdd (2 * a * d + x) d (2 * a + w) := by
  rw [RoundsToOdd, Int.add_mul]
  rcases h with h | ⟨hodd, hlo, hhi⟩
  · exact .inl (by rw [h])
  · exact .inr ⟨by omega, by omega, by omega⟩

/-- A value and its stand-in have the same sign. -/
theorem RoundsToOdd.pos_iff {x : Int} {d : Nat} {w : Int} (h : RoundsToOdd x d w) (hd : 0 < d) :
    0 < w ↔ 0 < x := by
  have hd' : (0 : Int) < d := by exact_mod_cast hd
  rcases h with rfl | ⟨hodd, hlo, hhi⟩
  · exact (mul_pos_iff_of_pos_right hd').symm
  · constructor <;> intro hpos
    · nlinarith
    · by_contra hle
      have : w ≤ -1 := by omega
      nlinarith

theorem RoundsToOdd.neg_iff {x : Int} {d : Nat} {w : Int} (h : RoundsToOdd x d w) (hd : 0 < d) :
    w < 0 ↔ x < 0 := by
  have := h.neg.pos_iff hd
  omega

theorem RoundsToOdd.natAbs {x : Int} {d : Nat} {w : Int} (h : RoundsToOdd x d w) (hd : 0 < d) :
    RoundsToOdd x.natAbs d w.natAbs := by
  have hpos := h.pos_iff hd
  have hneg := h.neg_iff hd
  rcases Int.le_total 0 w with hw | hw
  · rwa [Int.natAbs_of_nonneg hw, Int.natAbs_of_nonneg (by omega)]
  · rw [Int.ofNat_natAbs_of_nonpos hw, Int.ofNat_natAbs_of_nonpos (by omega)]
    exact h.neg

/-- A natural number is not below what stands for its quotient. -/
theorem RoundsToOdd.le {x d w : Nat} (h : RoundsToOdd x d w) (hd : 0 < d) : w ≤ x := by
  rcases h with h | ⟨hodd, hlo, -⟩
  · have h : x = w * d := by exact_mod_cast h
    exact h ▸ Nat.le_mul_of_pos_right w hd
  · have hlo : w * d < x + d := by exact_mod_cast hlo
    obtain ⟨v, rfl⟩ : ∃ v, w = v + 1 := ⟨w - 1, by omega⟩
    have hv := Nat.le_mul_of_pos_right v hd
    rw [Nat.add_mul] at hlo
    omega

/-- A quotient with a flag for its remainder stands for the dividend. -/
theorem roundsToOdd_flag (q : Nat) {r d : Nat} (hr : r < d) :
    RoundsToOdd (q * d + r : Nat) d (q ||| if r ≠ 0 then 1 else 0 : Nat) := by
  by_cases h0 : r = 0
  · exact .inl (by simp [h0])
  · have hmod : (q ||| 1) % 2 = 1 := Nat.or_mod_two_eq_one.mpr (.inr rfl)
    have hdiv : (q ||| 1) / 2 = q / 2 := by rw [Nat.or_div_two]; simp
    rw [if_pos h0]
    refine .inr ⟨by omega, ?_⟩
    obtain h | h : q ||| 1 = q ∨ q ||| 1 = q + 1 := by omega
    · rw [h]; push_cast; omega
    · rw [h]; push_cast; rw [Int.add_mul]; omega

theorem roundsToOdd_shrSticky (v k : Nat) : RoundsToOdd v (2 ^ k : Nat) (shrSticky v k) := by
  by_cases hk : k = 0
  · exact .inl (by simp [hk])
  · have h := roundsToOdd_flag (v / 2 ^ k) (Nat.mod_lt v (Nat.two_pow_pos k))
    rwa [Nat.div_add_mod', ← shrSticky_of_ne_zero v hk] at h

/-- Rounding to nearest with at least two bits to drop sees no difference between a value and what stands for
it: an odd number is no midpoint, and is on the same side of it as the value. -/
theorem nearestEven_of_roundsToOdd {x d w c : Nat} (hd : 0 < d) (hc : 0 < c) (h : RoundsToOdd x d w) :
    nearestEven w (4 * c) = nearestEven x (4 * c * d) := by
  rcases h with h | ⟨hodd, hlo, hhi⟩
  · have h : x = w * d := by exact_mod_cast h
    rw [h, nearestEven_scale w _ hd]
  · have hlo : w * d < x + d := by exact_mod_cast hlo
    have hhi : x < w * d + d := by exact_mod_cast hhi
    have hsplit : 4 * c * (w / (4 * c)) + w % (4 * c) = w := Nat.div_add_mod w (4 * c)
    have hr : w % (4 * c) < 4 * c := Nat.mod_lt w (by omega)
    have hrodd : w % (4 * c) % 2 = 1 := by
      rw [Nat.mod_mod_of_dvd w ⟨2 * c, by ring⟩]; omega
    generalize w / (4 * c) = q, w % (4 * c) = r at *
    subst w
    have hrd : d ≤ r * d := Nat.le_mul_of_pos_left d (by omega)
    have hw : (4 * c * q + r) * d = 4 * c * d * q + r * d := by ring
    obtain ⟨y, rfl⟩ : ∃ y, x = 4 * c * d * q + y := Nat.exists_eq_add_of_le (by omega)
    obtain h | h : r + 1 ≤ 2 * c ∨ 2 * c + 1 ≤ r := by omega
    · have := Nat.mul_le_mul_right d h
      rw [nearestEven_of_lt q (by omega), nearestEven_of_lt q (by nlinarith)]
    · have h1 := Nat.mul_le_mul_right d h
      have h2 := Nat.mul_le_mul_right d (show r + 1 ≤ 4 * c by omega)
      rw [nearestEven_of_gt q (by omega) hr, nearestEven_of_gt q (by nlinarith) (by nlinarith)]

/-! ### `finish` rounds once -/

theorem result_passes (s : Bool) (w : Nat) (sh e : Int) :
    result s (.normal (passes w sh e)) = packRounded s (e - sh) (roundEven w) := by
  by_cases hcarry : roundEven w = 2 ^ 24
  · rw [passes_of_carry hcarry, packRounded, if_pos hcarry, result_normal]
  · rw [passes_of_no_carry hcarry, packRounded, if_neg hcarry, result_normal]

theorem finishResult_of_normal {limit : CollapseShift} {m w : Nat} {sh : Int}
    (h : normalize limit m = .ok (.normal w sh)) (s : Bool) (e : Int) :
    finishResult limit s m e = .ok (packRounded s (e - sh) (roundEven w)) := by
  rw [finishResult, finish_of_normal h, ← result_passes]

theorem finishResult_of_collapsed {limit : CollapseShift} {m : Nat} (h : normalize limit m = .ok .collapsed)
    (s : Bool) (e : Int) : finishResult limit s m e = .ok 0#32 := by
  simp only [finishResult, finish_of_collapsed h, result_collapsed]

/-- The window of a magnitude rounds like the magnitude itself. -/
theorem roundEven_window (m : Nat) :
    roundEven (window m (26 - (Nat.log2 m : Int))) = nearestEven (m * 2 ^ 23) (2 ^ Nat.log2 m) := by
  generalize Nat.log2 m = h
  rw [roundEven_eq_nearestEven]
  by_cases hh : h < 26
  · obtain ⟨k, hk⟩ : ∃ k, 26 = k + h := ⟨26 - h, by omega⟩
    have hsh : (26 - (h : Int)).toNat = k := by omega
    rw [window_of_pos m (by omega), hsh]
    refine nearestEven_congr (by decide) (Nat.two_pow_pos h) ?_
    rw [Nat.mul_assoc, ← Nat.pow_add, ← hk]
    ring
  · obtain ⟨k, rfl⟩ : ∃ k, h = 26 + k := ⟨h - 26, by omega⟩
    have hsh : (-(26 - ((26 + k : Nat) : Int))).toNat = k := by omega
    rw [window_of_nonpos m (by omega), hsh,
      nearestEven_of_roundsToOdd (c := 2) (Nat.two_pow_pos k) (by decide) (roundsToOdd_shrSticky m k)]
    refine nearestEven_congr (by positivity) (by positivity) ?_
    rw [Nat.pow_add]
    ring

/-- A magnitude `m` at the working exponent `e` is `m * 2^(e - 153)`; `finish` rounds it once
(40_primitives.md R53). -/
theorem finishResult_eq_roundExact {limit : CollapseShift} {m : Nat}
    (h : normalize limit m ≠ .ok .collapsed) (s : Bool) (e : Int) :
    finishResult limit s m e = .ok (roundExact s m (e - 3)) := by
  have hm : m ≠ 0 := fun h0 => h (h0 ▸ normalize_zero limit)
  have hlim : ¬collapseLimit limit < 26 - (Nat.log2 m : Int) := fun hlt =>
    h ((normalize_collapsed_iff limit m).mpr (.inr hlt))
  have hnorm := normalize_eq_window limit hm
  rw [if_neg hlim] at hnorm
  have he : e - (26 - (Nat.log2 m : Int)) = e - 3 + Nat.log2 m - 23 := by omega
  rw [finishResult_of_normal hnorm, roundEven_window, roundExact, he]

/-- The highest set bit of a value and of what stands for it. -/
theorem RoundsToOdd.log2_eq {x k m : Nat} (h : RoundsToOdd x (2 ^ k : Nat) m)
    (hm : 2 ^ 25 ≤ m ∨ x = m * 2 ^ k) (h0 : m ≠ 0) : Nat.log2 x = Nat.log2 m + k := by
  have hpos := Nat.two_pow_pos k
  have hlo := Nat.log2_self_le h0
  have hhi := Nat.lt_log2_self (n := m)
  have hbounds : 2 ^ Nat.log2 m * 2 ^ k ≤ x ∧ x < 2 ^ (Nat.log2 m + 1) * 2 ^ k := by
    by_cases hx : x = m * 2 ^ k
    · rw [hx]
      exact ⟨Nat.mul_le_mul_right _ hlo, Nat.mul_lt_mul_of_pos_right hhi hpos⟩
    · obtain ⟨hodd, hxlo, hxhi⟩ := h.resolve_left (by exact_mod_cast hx)
      have hxlo : m * 2 ^ k < x + 2 ^ k := by exact_mod_cast hxlo
      have hxhi : x < m * 2 ^ k + 2 ^ k := by exact_mod_cast hxhi
      have hne : Nat.log2 m ≠ 0 := by
        have := (Nat.le_log2 (k := 25) h0).mpr (hm.resolve_right hx)
        omega
      have heven : 2 ^ Nat.log2 m % 2 = 0 := Nat.pow_mod 2 _ 2 ▸ by simp [hne]
      have hlo' : 2 ^ Nat.log2 m + 1 ≤ m := by omega
      have h1 := Nat.mul_le_mul_right (2 ^ k) hlo'
      have h2 := Nat.mul_le_mul_right (2 ^ k) (show m + 1 ≤ 2 ^ (Nat.log2 m + 1) by omega)
      rw [Nat.add_mul] at h1 h2
      omega
  have hx : x ≠ 0 := (Nat.mul_pos (Nat.two_pow_pos _) hpos).trans_le hbounds.1 |>.ne'
  rw [Nat.log2_eq_iff hx, Nat.add_right_comm, Nat.pow_add, Nat.pow_add 2 (_ + 1)]
  exact hbounds

/-- The reference rounds a value and what stands for it alike. -/
theorem roundExact_of_roundsToOdd {x k m : Nat} (h : RoundsToOdd x (2 ^ k : Nat) m)
    (hm : 2 ^ 25 ≤ m ∨ x = m * 2 ^ k) (h0 : m ≠ 0) (s : Bool) (e : Int) :
    roundExact s x e = roundExact s m (e + k) := by
  have hlog := h.log2_eq hm h0
  have he : e + ((Nat.log2 m + k : Nat) : Int) - 23 = e + k + Nat.log2 m - 23 := by omega
  have hround : nearestEven (x * 2 ^ 23) (2 ^ (Nat.log2 m + k)) = nearestEven (m * 2 ^ 23) (2 ^ Nat.log2 m) := by
    rcases hm with hm | rfl
    · obtain ⟨j, hj⟩ := Nat.exists_eq_add_of_le ((Nat.le_log2 h0).mpr hm)
      have hmid := nearestEven_of_roundsToOdd (Nat.two_pow_pos k) (Nat.two_pow_pos j) h
      rw [hj]
      calc nearestEven (x * 2 ^ 23) (2 ^ (25 + j + k))
          = nearestEven x (4 * 2 ^ j * 2 ^ k) :=
            nearestEven_congr (by positivity) (by positivity) (by ring)
        _ = nearestEven m (4 * 2 ^ j) := hmid.symm
        _ = nearestEven (m * 2 ^ 23) (2 ^ (25 + j)) :=
            nearestEven_congr (by positivity) (by positivity) (by ring)
    · exact nearestEven_congr (by positivity) (by positivity) (by ring)
  rw [roundExact, roundExact, hlog, hround, he]

end Sys2Proof.Machine
end

section
/-! The obligations on FADD's sum (41_add.md R56, R59): the aligned magnitude stands for the exact sum, so FADD
rounds the exact sum once. -/

namespace Sys2Proof.Machine

/-! ### Commutativity -/

/-- Swapping the ports swaps the aligned mantissas and keeps the exponent. -/
theorem addPath_swap (a b : Word) :
    (addPath a b).mA = (addPath b a).mB ∧ (addPath a b).mB = (addPath b a).mA ∧
      (addPath a b).E = (addPath b a).E := by
  rcases lt_trichotomy (unpack a).e.toNat (unpack b).e.toNat with h | h | h
  · obtain ⟨hA, hB, hE⟩ := addPath_of_lt h
    obtain ⟨hA', hB', hE'⟩ := addPath_of_le h.le
    exact ⟨hA.trans hB'.symm, hB.trans hA'.symm, hE.trans hE'.symm⟩
  · obtain ⟨hA, hB, hE⟩ := addPath_of_le h.ge
    obtain ⟨hA', hB', hE'⟩ := addPath_of_le h.le
    rw [h, Nat.sub_self, align_by_zero] at hB hB'
    exact ⟨hA.trans hB'.symm, hB.trans hA'.symm, by rw [hE, hE', h]⟩
  · obtain ⟨hA, hB, hE⟩ := addPath_of_le h.le
    obtain ⟨hA', hB', hE'⟩ := addPath_of_lt h
    exact ⟨hA.trans hB'.symm, hB.trans hA'.symm, hE.trans hE'.symm⟩

/-- The ports of FADD are interchangeable up to `finish`. -/
theorem addPath_comm (a b : Word) :
    (addPath a b).m = (addPath b a).m ∧ (addPath a b).s = (addPath b a).s ∧
      (addPath a b).E = (addPath b a).E := by
  obtain ⟨hA, hB, hE⟩ := addPath_swap a b
  by_cases hs : (unpack a).s = (unpack b).s
  · obtain ⟨hm, hsign⟩ := addPath_same_sign hs
    obtain ⟨hm', hsign'⟩ := addPath_same_sign hs.symm
    exact ⟨by rw [hm, hm', hA, hB, Nat.add_comm], by rw [hsign, hsign', hs], hE⟩
  · obtain ⟨hm, hsign⟩ := addPath_signs_differ hs
    obtain ⟨hm', hsign'⟩ := addPath_signs_differ (Ne.symm hs)
    have hsb : (unpack b).s = !(unpack a).s := Bool.eq_not_of_ne (Ne.symm hs)
    rw [hm, hm', hsign, hsign', hA, hB, hsb]
    cases (unpack a).s <;> simp [hE]

/-- Settles O25: the ports meet the same magnitude, sign and exponent. -/
theorem faddIsCommutative : Obligations.FaddIsCommutative := by
  intro c a b
  obtain ⟨hm, hs, hE⟩ := addPath_comm a b
  rw [fadd, fadd, hm, hs, hE]

/-! ### Signed magnitudes -/

/-- A magnitude with its sign; true is negative, as in a pattern. -/
def signed (s : Bool) (v : Nat) : Int := if s then -v else v

theorem signed_natAbs (s : Bool) (v : Nat) : (signed s v).natAbs = v := by
  cases s <;> simp [signed]

theorem signed_decide (d : Int) : signed (decide (d < 0)) d.natAbs = d := by
  by_cases h : d < 0
  · rw [signed, if_pos (decide_eq_true h)]; omega
  · rw [signed, if_neg (by simpa using h)]; omega

theorem signed_neg_iff {s : Bool} {v : Nat} (hv : v ≠ 0) : signed s v < 0 ↔ s = true := by
  cases s <;> simp [signed]; omega

theorem RoundsToOdd.signed {x d w : Nat} (h : RoundsToOdd x d w) (s : Bool) :
    RoundsToOdd (signed s x) d (signed s w) := by
  cases s
  · exact h
  · exact h.neg

/-- FADD adds the aligned mantissas with their signs. -/
theorem signed_addPath (a b : Word) :
    signed (addPath a b).s (addPath a b).m =
      signed (unpack a).s (addPath a b).mA + signed (unpack b).s (addPath a b).mB := by
  by_cases hs : (unpack a).s = (unpack b).s
  · obtain ⟨hm, hsign⟩ := addPath_same_sign hs
    rw [hm, hsign, ← hs, signed, signed, signed]
    split <;> omega
  · obtain ⟨hm, hsign⟩ := addPath_signs_differ hs
    have hsb : (unpack b).s = !(unpack a).s := Bool.eq_not_of_ne (Ne.symm hs)
    rw [hm, hsign, signed_decide, hsb]
    cases (unpack a).s <;> simp [signed] <;> omega

/-! ### The exact sum -/

theorem signedUnits_eq (w : Word) (lo : Nat) :
    signedUnits w lo = signed (unpack w).s (sig (unpack w).f * 2 ^ ((unpack w).e.toNat - lo)) := by
  rw [signedUnits, sig_eq, signed]
  split <;> push_cast <;> ring

theorem exactSum_comm (a b : Word) : exactSum a b = exactSum b a := by
  simp only [exactSum, Nat.min_comm, Int.add_comm]

/-- The exact sum, when `a` has the larger exponent field, or the same. -/
theorem exactSum_of_le {a b : Word} (h : (unpack b).e.toNat ≤ (unpack a).e.toNat) :
    exactSum a b =
      signed (unpack a).s (sig (unpack a).f * 2 ^ ((unpack a).e.toNat - (unpack b).e.toNat)) +
        signed (unpack b).s (sig (unpack b).f) := by
  simp only [exactSum, signedUnits_eq, Nat.min_eq_right h, Nat.sub_self, Nat.pow_zero, Nat.mul_one]

theorem signed_wide (s : Bool) (f : BitVec 23) : signed s (wide f) = 8 * signed s (sig f) := by
  rw [wide_eq, sig_eq, signed, signed]
  split <;> push_cast <;> ring

theorem signed_mul (s : Bool) (u v : Nat) : signed s (u * v) = signed s u * v := by
  cases s <;> simp [signed]

/-- What FADD passes to `finish` stands for the exact sum with three GRS bits (41_add.md R63). -/
theorem addPath_roundsToOdd {a b : Word} (h : (unpack b).e.toNat ≤ (unpack a).e.toNat) :
    RoundsToOdd (8 * exactSum a b) (2 ^ ((unpack a).e.toNat - (unpack b).e.toNat) : Nat)
      (signed (addPath a b).s (addPath a b).m) := by
  obtain ⟨hA, hB, -⟩ := addPath_of_le h
  have hsmall := ((roundsToOdd_shrSticky (wide (unpack b).f)
    ((unpack a).e.toNat - (unpack b).e.toNat)).signed (unpack b).s).add_even
      (4 * signed (unpack a).s (sig (unpack a).f))
  rw [signed_addPath, hA, hB, align_eq_shrSticky, exactSum_of_le h, signed_mul]
  convert hsmall using 1
  · rw [signed_wide]; ring
  · rw [signed_wide]; ring

/-- A gap of at most 1 drops no bit that is set. -/
theorem shrSticky_wide (f : BitVec 23) {k : Nat} (hk : k ≤ 1) : shrSticky (wide f) k * 2 ^ k = wide f := by
  obtain rfl | rfl : k = 0 ∨ k = 1 := by omega
  · simp
  · obtain ⟨-, -, hdvd⟩ := wide_bounds f
    have heven : wide f % 2 ^ 1 = 0 := by omega
    rw [shrSticky_of_ne_zero _ one_ne_zero, heven, if_neg (by decide), Nat.or_zero]
    omega

/-- A gap of at least 2 leaves the magnitude large. -/
theorem addPath_large {a b : Word} (h : (unpack b).e.toNat + 2 ≤ (unpack a).e.toNat) :
    2 ^ 25 ≤ (addPath a b).m := by
  obtain ⟨k, hk⟩ : ∃ k, (unpack a).e.toNat - (unpack b).e.toNat = 2 + k :=
    Nat.exists_eq_add_of_le (by omega)
  obtain ⟨hA, hB, -⟩ := addPath_of_le (a := a) (b := b) (by omega)
  have ha := wide_bounds (unpack a).f
  have hb := wide_bounds (unpack b).f
  have hquarter : (addPath a b).mB ≤ wide (unpack b).f / 2 ^ 2 + 1 := by
    rw [hB, align_eq_shrSticky, hk, ← shrSticky_shrSticky]
    exact (shrSticky_le_self _ k).trans (shrSticky_le _ 2)
  by_cases hs : (unpack a).s = (unpack b).s
  · have := addPath_sum_bounds hs
    omega
  · have := addPath_difference hs
    omega

/-- A magnitude that is not large is exact. -/
theorem addPath_exact {a b : Word} (h : (unpack b).e.toNat ≤ (unpack a).e.toNat)
    (hm : (addPath a b).m < 2 ^ 25) :
    (unpack a).e.toNat ≤ (unpack b).e.toNat + 1 ∧
      (8 * exactSum a b).natAbs =
        (addPath a b).m * 2 ^ ((unpack a).e.toNat - (unpack b).e.toNat) := by
  have hgap : (unpack a).e.toNat ≤ (unpack b).e.toNat + 1 := by
    by_contra hlt
    have := addPath_large (a := a) (b := b) (by omega)
    omega
  obtain ⟨hA, hB, -⟩ := addPath_of_le h
  have hb := shrSticky_wide (unpack b).f
    (show (unpack a).e.toNat - (unpack b).e.toNat ≤ 1 by omega)
  have hexact : 8 * exactSum a b = signed (addPath a b).s (addPath a b).m *
      (2 ^ ((unpack a).e.toNat - (unpack b).e.toNat) : Nat) := by
    rw [signed_addPath, hA, hB, align_eq_shrSticky, exactSum_of_le h, Int.add_mul, ← signed_mul,
      ← signed_mul, hb, Int.mul_add, signed_mul, signed_mul, signed_wide, signed_wide, Int.mul_assoc]
  exact ⟨hgap, by rw [hexact, Int.natAbs_mul, signed_natAbs, Int.natAbs_natCast]⟩

/-! ### Zero sums, collapse pairs and the sign -/

theorem addPath_m_eq_zero_iff (a b : Word) : (addPath a b).m = 0 ↔ exactSum a b = 0 := by
  wlog h : (unpack b).e.toNat ≤ (unpack a).e.toNat generalizing a b
  · rw [(addPath_comm a b).1, exactSum_comm]
    exact this b a (by omega)
  have hpos := Nat.two_pow_pos ((unpack a).e.toNat - (unpack b).e.toNat)
  have hp := (addPath_roundsToOdd h).pos_iff hpos
  have hn := (addPath_roundsToOdd h).neg_iff hpos
  have habs := signed_natAbs (addPath a b).s (addPath a b).m
  omega

/-- The sign of a nonzero sum. -/
theorem addPath_s_eq {a b : Word} (h0 : (addPath a b).m ≠ 0) :
    (addPath a b).s = decide (exactSum a b < 0) := by
  wlog h : (unpack b).e.toNat ≤ (unpack a).e.toNat generalizing a b
  · obtain ⟨hm, hs, -⟩ := addPath_comm a b
    rw [hs, exactSum_comm]
    exact this (hm ▸ h0) (by omega)
  have hn := (addPath_roundsToOdd h).neg_iff (Nat.two_pow_pos _)
  rw [Bool.eq_iff_iff, decide_eq_true_iff, ← signed_neg_iff h0, hn]
  omega

theorem addPath_m_of_lt_eight {a b : Word} (h : (addPath a b).m < 8) :
    (addPath a b).m = 0 ∨ (addPath a b).m = 4 := by
  by_cases hs : (unpack a).s = (unpack b).s
  · have := addPath_sum_bounds hs
    omega
  · have := (addPath_difference_bounds hs).2 h
    omega

/-- The magnitude 4 is one unit of the smaller exponent (41_add.md R57). -/
theorem addPath_m_eq_four_iff (a b : Word) : (addPath a b).m = 4 ↔ CollapsePair a b := by
  wlog h : (unpack b).e.toNat ≤ (unpack a).e.toNat generalizing a b
  · rw [(addPath_comm a b).1, CollapsePair, exactSum_comm, ne_comm]
    exact this b a (by omega)
  have hne : (unpack a).e ≠ (unpack b).e ↔ (unpack a).e.toNat ≠ (unpack b).e.toNat :=
    not_congr BitVec.toNat_inj.symm
  rw [CollapsePair, hne]
  constructor
  · intro hm
    obtain ⟨hgap, hexact⟩ := addPath_exact h (by omega)
    obtain hk | hk : (unpack a).e.toNat - (unpack b).e.toNat = 0 ∨
        (unpack a).e.toNat - (unpack b).e.toNat = 1 := by omega
    all_goals
      rw [hm, hk] at hexact
      omega
  · rintro ⟨hone, hlt⟩
    have hle := ((addPath_roundsToOdd h).natAbs (Nat.two_pow_pos _)).le (Nat.two_pow_pos _)
    rw [signed_natAbs] at hle
    obtain ⟨hgap, hexact⟩ := addPath_exact h (by omega)
    have hk : (unpack a).e.toNat - (unpack b).e.toNat = 1 := by omega
    rw [hk] at hexact
    omega

/-! ### FADD rounds the exact sum -/

/-- FADD collapses on the zero sum and, with the threshold 23, on the pairs of R57. -/
theorem normalize_addPath_collapsed_iff (limit : CollapseShift) (a b : Word) :
    normalize limit (addPath a b).m = .ok .collapsed ↔
      exactSum a b = 0 ∨ (limit = .source23 ∧ CollapsePair a b) := by
  obtain ⟨-, h23, h26⟩ := normalizeGivesAWindow
  rw [← addPath_m_eq_zero_iff, ← addPath_m_eq_four_iff]
  cases limit with
  | source23 =>
    have := addPath_m_of_lt_eight (a := a) (b := b)
    rw [h23]
    simp only [true_and]
    omega
  | ieee26 => simp [h26]

/-- The magnitude with its three GRS bits, at the larger exponent field, rounds like the exact sum at the
smaller one. -/
theorem roundExact_addPath {a b : Word} (h0 : (addPath a b).m ≠ 0) (s : Bool) :
    roundExact s (addPath a b).m ((addPath a b).E - 3) =
      roundExact s (exactSum a b).natAbs (min (unpack a).e.toNat (unpack b).e.toNat : Nat) := by
  wlog h : (unpack b).e.toNat ≤ (unpack a).e.toNat generalizing a b
  · obtain ⟨hm, -, hE⟩ := addPath_comm a b
    rw [hm, hE, exactSum_comm, Nat.min_comm]
    exact this (hm ▸ h0) (by omega)
  obtain ⟨-, -, hE⟩ := addPath_of_le h
  have hodd := (addPath_roundsToOdd h).natAbs (Nat.two_pow_pos _)
  rw [signed_natAbs] at hodd
  have hm : 2 ^ 25 ≤ (addPath a b).m ∨ (8 * exactSum a b).natAbs =
      (addPath a b).m * 2 ^ ((unpack a).e.toNat - (unpack b).e.toNat) :=
    (le_or_gt _ _).imp_right fun hlt => (addPath_exact h hlt).2
  have height : (8 * exactSum a b).natAbs = (exactSum a b).natAbs * 2 ^ 3 := by omega
  have hS : (exactSum a b).natAbs ≠ 0 := by
    rwa [Int.natAbs_ne_zero, ne_eq, ← addPath_m_eq_zero_iff]
  calc roundExact s (addPath a b).m ((addPath a b).E - 3)
      = roundExact s (8 * exactSum a b).natAbs ((unpack b).e.toNat - 3) := by
        rw [roundExact_of_roundsToOdd hodd hm h0, hE]
        congr 1
        omega
    _ = roundExact s (exactSum a b).natAbs (min (unpack a).e.toNat (unpack b).e.toNat : Nat) := by
        rw [height, roundExact_of_roundsToOdd (.inl (by push_cast; rfl)) (.inr rfl) hS, Nat.min_eq_right h]
        congr 1
        omega

/-- FADD is the reference sum, on all operands. -/
theorem fadd_eq_addReference (c : Config) (a b : Word) :
    fadd c a b = .ok (addReference c.collapseShift a b) := by
  have hiff := normalize_addPath_collapsed_iff c.collapseShift a b
  rw [fadd, addReference]
  split
  · next hcollapse => exact finishResult_of_collapsed (hiff.mpr hcollapse) _ _
  · next hnot =>
    have h0 : (addPath a b).m ≠ 0 := fun h => hnot (.inl ((addPath_m_eq_zero_iff a b).mp h))
    rw [finishResult_eq_roundExact (hiff.not.mpr hnot), addPath_s_eq h0, roundExact_addPath h0]

/-- Settles O6: completion writes the reference sum, `ERR`, `CNT` and `STATE`. -/
theorem faddAnswersTheRoundedSum : Obligations.FaddAnswersTheRoundedSum := by
  intro a b s
  rw [exec, execFadd, fadd_eq_addReference, answer_ok]
  rfl

end Sys2Proof.Machine
end

section
/-! The obligations on FADD's zero results and collapses (41_add.md R57, R58): the exact sum is zero for opposite
patterns only, and one unit for the named pairs only. -/

namespace Sys2Proof.Machine

/-! ### Patterns and their fields -/

theorem unpack_injective {v w : Word} (hs : (unpack v).s = (unpack w).s) (he : (unpack v).e = (unpack w).e)
    (hf : (unpack v).f = (unpack w).f) : v = w := by
  rw [← pack_unpack v, ← pack_unpack w, hs, he, hf]

/-- Flipping bit 31 flips the sign and nothing else. -/
theorem unpack_flip (x : Word) :
    unpack (x ^^^ 0x80000000#32) = { s := !(unpack x).s, e := (unpack x).e, f := (unpack x).f } := by
  have he : (0x80000000#32).extractLsb' 23 8 = 0#8 := by decide
  have hf : (0x80000000#32).extractLsb' 0 23 = 0#23 := by decide
  simp [unpack, BitVec.extractLsb'_xor, he, hf]

theorem sig_inj (f g : BitVec 23) : sig f = sig g ↔ f = g := by
  rw [sig_eq, sig_eq, Nat.add_left_cancel_iff, BitVec.toNat_inj]

/-! ### Zero sums -/

theorem signed_add_eq_zero {s t : Bool} {u v : Nat} (hu : u ≠ 0) (h : signed s u + signed t v = 0) :
    t = !s ∧ u = v := by
  cases s <;> cases t <;> simp [signed] at h ⊢ <;> omega

theorem natAbs_signed_add_same (s : Bool) (u v : Nat) : (signed s u + signed s v).natAbs = u + v := by
  cases s <;> simp [signed] <;> omega

theorem natAbs_signed_add_differ {s t : Bool} (h : s ≠ t) (u v : Nat) :
    (signed s u + signed t v).natAbs = (u - v : Int).natAbs := by
  cases s <;> cases t <;> simp [signed] at h ⊢ <;> omega

/-- The exact sum is 0 for opposite patterns only. -/
theorem exactSum_eq_zero_iff (a b : Word) : exactSum a b = 0 ↔ b = a ^^^ 0x80000000#32 := by
  constructor
  · intro h
    simp only [exactSum, signedUnits_eq] at h
    have hpos : sig (unpack a).f *
        2 ^ ((unpack a).e.toNat - min (unpack a).e.toNat (unpack b).e.toNat) ≠ 0 :=
      Nat.mul_ne_zero (sig_ne_zero _) (Nat.two_pow_pos _).ne'
    obtain ⟨hs, hmag⟩ := signed_add_eq_zero hpos h
    obtain ⟨he, hf⟩ := sig_exp_unique (sig_lower _) (sig_upper _) (sig_lower _) (sig_upper _) hmag
    have he : (unpack b).e = (unpack a).e := BitVec.eq_of_toNat_eq (by omega)
    have hf : (unpack b).f = (unpack a).f := (sig_inj _ _).mp hf.symm
    exact unpack_injective (by rw [hs, unpack_flip]) (by rw [he, unpack_flip]) (by rw [hf, unpack_flip])
  · rintro rfl
    rw [exactSum_of_le (by rw [unpack_flip]), unpack_flip, Nat.sub_self, Nat.pow_zero, Nat.mul_one]
    cases (unpack a).s <;> simp [signed]

/-- Opposite patterns cancel to the canonical zero, with either threshold. -/
theorem fadd_flip (c : Config) (x : Word) : fadd c x (x ^^^ 0x80000000#32) = .ok 0#32 := by
  rw [fadd_eq_addReference, addReference, if_pos (.inl ((exactSum_eq_zero_iff _ _).mpr rfl))]

/-! ### Collapse pairs -/

/-- A power of two and, negated, the pattern just below it (41_add.md R57): twice a significand is one more
than a significand only at their extremes. -/
theorem collapsePair_iff_of_le {a b : Word} (h : (unpack b).e.toNat ≤ (unpack a).e.toNat) :
    CollapsePair a b ↔ (unpack a).s ≠ (unpack b).s ∧ (unpack a).e.toNat = (unpack b).e.toNat + 1 ∧
      (unpack a).f = 0#23 ∧ (unpack b).f = 0x7FFFFF#23 := by
  have ha := sig_lower (unpack a).f
  have hb := sig_upper (unpack b).f
  have hfa : (unpack a).f = 0#23 ↔ sig (unpack a).f = 2 ^ 23 := (sig_inj _ 0#23).symm
  have hfb : (unpack b).f = 0x7FFFFF#23 ↔ sig (unpack b).f = 2 ^ 24 - 1 := (sig_inj _ 0x7FFFFF#23).symm
  have hne : (unpack a).e ≠ (unpack b).e ↔ (unpack a).e.toNat ≠ (unpack b).e.toNat :=
    not_congr BitVec.toNat_inj.symm
  rw [CollapsePair, exactSum_of_le h, hne, hfa, hfb]
  by_cases hs : (unpack a).s = (unpack b).s
  · rw [← hs, natAbs_signed_add_same]
    have := sig_lower (unpack b).f
    exact ⟨fun ⟨h1, _⟩ => by omega, fun ⟨h1, _⟩ => absurd rfl h1⟩
  · rw [natAbs_signed_add_differ hs, and_iff_right hs]
    obtain hk | hk | hk : (unpack a).e.toNat - (unpack b).e.toNat = 0 ∨
        (unpack a).e.toNat - (unpack b).e.toNat = 1 ∨
        2 ≤ (unpack a).e.toNat - (unpack b).e.toNat := by omega
    · omega
    · rw [hk]
      omega
    · have := Nat.mul_le_mul_left (sig (unpack a).f) (Nat.pow_le_pow_right Nat.two_pos hk)
      omega

theorem exactSum_of_collapsePair {a b : Word} (h : (unpack b).e.toNat ≤ (unpack a).e.toNat)
    (hpair : CollapsePair a b) : exactSum a b = signed (unpack a).s 1 := by
  obtain ⟨hs, he, hfa, hfb⟩ := (collapsePair_iff_of_le h).mp hpair
  have hsb : (unpack b).s = !(unpack a).s := Bool.eq_not_of_ne (Ne.symm hs)
  rw [exactSum_of_le h, he, hfa, hfb, hsb, Nat.add_sub_cancel_left]
  cases (unpack a).s <;> decide

theorem CollapsePair.symm {a b : Word} (h : CollapsePair a b) : CollapsePair b a :=
  ⟨exactSum_comm a b ▸ h.1, h.2.symm⟩

theorem collapsePair_iff (a b : Word) :
    CollapsePair a b ↔ (unpack a).s ≠ (unpack b).s ∧
      (((unpack a).e.toNat = (unpack b).e.toNat + 1 ∧
          (unpack a).f = 0#23 ∧ (unpack b).f = 0x7FFFFF#23) ∨
        ((unpack b).e.toNat = (unpack a).e.toNat + 1 ∧
          (unpack b).f = 0#23 ∧ (unpack a).f = 0x7FFFFF#23)) := by
  rcases le_total (unpack b).e.toNat (unpack a).e.toNat with h | h
  · rw [collapsePair_iff_of_le h, or_iff_left (by omega)]
  · rw [show CollapsePair a b ↔ CollapsePair b a from ⟨.symm, .symm⟩, collapsePair_iff_of_le h, ne_comm,
      or_iff_right (by omega)]

theorem fadd_of_collapsePair {c : Config} {a b : Word} (hc : c.collapseShift = .source23)
    (hpair : CollapsePair a b) : fadd c a b = .ok 0#32 := by
  rw [fadd_eq_addReference, addReference, if_pos (.inr ⟨hc, hpair⟩)]

theorem roundExact_one (s : Bool) (e : Int) : roundExact s 1 e = pack s (e - 23) (2 ^ 23) := by
  have hlog : Nat.log2 1 = 0 := rfl
  have hround : nearestEven (1 * 2 ^ 23) (2 ^ 0) = 2 ^ 23 := by decide
  rw [roundExact, hlog, hround, packRounded, if_neg (by decide), Int.natCast_zero, Int.add_zero]

/-- With the threshold 26, a pair of R57 gives its exact sum, packed. -/
theorem fadd_of_collapsePair_ieee26 {c : Config} {a b : Word} (hc : c.collapseShift = .ieee26)
    (h : (unpack b).e.toNat < (unpack a).e.toNat) (hpair : CollapsePair a b) :
    fadd c a b = .ok (pack (unpack a).s ((unpack a).e.toNat - 24) (2 ^ 23)) := by
  have hsum := exactSum_of_collapsePair h.le hpair
  obtain ⟨-, he, -, -⟩ := (collapsePair_iff_of_le h.le).mp hpair
  have hS : ¬(exactSum a b = 0 ∨ c.collapseShift = .source23 ∧ CollapsePair a b) := by
    rw [hsum, hc]
    cases (unpack a).s <;> simp [signed]
  have hsign : decide (signed (unpack a).s 1 < 0) = (unpack a).s := by
    cases (unpack a).s <;> decide
  rw [fadd_eq_addReference, addReference, if_neg hS, hsum, signed_natAbs, hsign, roundExact_one,
    Nat.min_eq_right h.le]
  congr 2
  omega

/-- Settles O23: the magnitude is 0 for the zero sum and 4 for one unit. -/
theorem faddCollapsesExactlyOnTheNamedPairs : Obligations.FaddCollapsesExactlyOnTheNamedPairs := by
  intro a b
  refine ⟨addPath_m_of_lt_eight, (addPath_m_eq_zero_iff a b).trans (exactSum_eq_zero_iff a b),
    (addPath_m_eq_four_iff a b).trans (collapsePair_iff a b), fun hm c => ?_⟩
  have hpair := (addPath_m_eq_four_iff a b).mp hm
  refine ⟨fun hc => fadd_of_collapsePair hc hpair, fun hc => ?_⟩
  split
  · next h =>
    rw [fadd_of_collapsePair_ieee26 hc h hpair, max_eq_left (by omega)]
  · next h =>
    have hne := mt BitVec.eq_of_toNat_eq hpair.2
    rw [faddIsCommutative, fadd_of_collapsePair_ieee26 hc (by omega) hpair.symm, max_eq_right (by omega)]

/-! ### Zero results -/

/-- A packed negative zero has an exponent field of 0. -/
theorem finish_of_fadd_negZero {c : Config} {a b : Word} (h : fadd c a b = .ok 0x80000000#32) :
    ∃ p, finish c.collapseShift (addPath a b).m (addPath a b).E = .ok (.normal p) ∧ p.e2 % 256 = 0 := by
  obtain ⟨r, hr⟩ := finish_answers c.collapseShift (addPath a b).m (addPath a b).E
  simp only [fadd, finishResult, hr, Except.ok.injEq] at h
  cases r with
  | collapsed =>
    rw [result_collapsed] at h
    exact absurd h (by decide)
  | normal p =>
    refine ⟨p, hr, ?_⟩
    have he : expPack p.e2 = (unpack 0x80000000#32).e := by
      rw [← h, result_normal, unpack_pack]
    have hzero : (unpack 0x80000000#32).e.toNat = 0 := by decide
    rw [← expPack_toNat, he, hzero]
    rfl

/-- Settles O24: cancellation is the zero sum, and a packed zero comes from its exponent. -/
theorem faddCancelsToCanonicalZero : Obligations.FaddCancelsToCanonicalZero := by
  refine ⟨fadd_flip, result_collapsed, fun c a b => finish_of_fadd_negZero, ?_, ?_, ?_⟩ <;> decide

end Sys2Proof.Machine
end

section
/-! The obligations on FADD with a small operand (41_add.md R60, R61): an operand that aligns to at most two
units of bit 0 rounds away, and one that aligns to four does not. -/

namespace Sys2Proof.Machine

/-! ### Aligned operands -/

/-- From a gap of 26 on, only the sticky bit is left. -/
theorem align_wide_eq_one (f : BitVec 23) {k : Nat} (hk : 26 ≤ k) : align (wide f) k = 1 := by
  have hf := wide_bounds f
  rw [align_eq_shrSticky]
  obtain rfl | hk := hk.eq_or_lt
  · have hdiv : wide f / 2 ^ 26 = 1 := by omega
    rw [shrSticky_of_ne_zero _ (by decide), hdiv]
    split <;> rfl
  · have hlt : wide f < 2 ^ k := (show wide f < 2 ^ 27 by omega).trans_le (Nat.pow_le_pow_right Nat.two_pos hk)
    rw [shrSticky_of_lt hlt, if_neg (by omega)]

/-- A zero pattern's mantissa is its hidden bit alone. -/
theorem align_wide_zero_le {k : Nat} (hk : 25 ≤ k) : align (wide 0#23) k ≤ 2 := by
  obtain rfl | hk := hk.eq_or_lt
  · rw [align_eq_shrSticky]
    decide
  · rw [align_wide_eq_one _ hk]
    decide

/-! ### Magnitudes near a mantissa -/

/-- A small operand moves the larger one's mantissa by its aligned value. -/
theorem addPath_of_small {a b : Word} {t : Nat} (h : (unpack b).e.toNat ≤ (unpack a).e.toNat)
    (ht : align (wide (unpack b).f) ((unpack a).e.toNat - (unpack b).e.toNat) = t) (hlt : t < 2 ^ 26) :
    (addPath a b).s = (unpack a).s ∧
      ((addPath a b).m = wide (unpack a).f + t ∨ (addPath a b).m + t = wide (unpack a).f) := by
  obtain ⟨hA, hB, -⟩ := addPath_of_le h
  have ha := wide_bounds (unpack a).f
  have hsum := signed_addPath a b
  rw [hA, hB, ht] at hsum
  generalize (addPath a b).s = s, (unpack a).s = sa, (unpack b).s = sb at *
  cases s <;> cases sa <;> cases sb <;> simp [signed] at hsum ⊢ <;> omega

theorem finishResult_of_bit_26 (limit : CollapseShift) (s : Bool) {m : Nat} (e : Int) (hlo : 2 ^ 26 ≤ m)
    (hhi : m < 2 ^ 27) : finishResult limit s m e = .ok (packRounded s e (roundEven m)) := by
  simp only [finishResult, finish_of_bit_26 limit e hlo hhi, result_passes, Int.sub_zero]

/-- A magnitude less than three units away from a mantissa rounds to it; below the least mantissa the
window is doubled, and the rounding carries back (41_add.md R60). -/
theorem finishResult_near (limit : CollapseShift) (s : Bool) {M m : Nat} (e : Int) (hlo : 2 ^ 23 ≤ M)
    (hhi : M < 2 ^ 24) (hm : 8 * M ≤ m + 2) (hm' : m ≤ 8 * M + 2) :
    finishResult limit s m e = .ok (pack s e M) := by
  by_cases h26 : 2 ^ 26 ≤ m
  · have hround : roundEven m = M := by
      rw [roundEven_eq]
      split <;> omega
    rw [finishResult_of_bit_26 limit s e h26 (by omega), hround, packRounded, if_neg (by omega)]
  · have hround : roundEven (m * 2) = 2 ^ 24 := by
      rw [roundEven_eq]
      split <;> omega
    obtain rfl : M = 2 ^ 23 := by omega
    simp only [finishResult, finish_of_bit_25 limit e (by omega) (Nat.lt_of_not_le h26), result_passes, hround,
      packRounded, if_true, Int.sub_add_cancel]

/-- An operand that aligns to at most two units rounds away. -/
theorem fadd_of_small {c : Config} {a b : Word} (h : (unpack b).e.toNat ≤ (unpack a).e.toNat)
    (ht : align (wide (unpack b).f) ((unpack a).e.toNat - (unpack b).e.toNat) ≤ 2) :
    fadd c a b = .ok a := by
  obtain ⟨hs, hm⟩ := addPath_of_small h rfl (by omega)
  obtain ⟨-, -, hE⟩ := addPath_of_le h
  have hwide := wide_eq (unpack a).f
  rw [← sig_eq] at hwide
  rw [fadd, hs, hE, finishResult_near _ _ _ (sig_lower (unpack a).f) (sig_upper _) (by omega) (by omega),
    pack_unpack]

/-- Settles O26: from a gap of 26 on the smaller operand aligns to 1, on either port. -/
theorem faddIgnoresAFarSmallerOperand : Obligations.FaddIgnoresAFarSmallerOperand := by
  refine ⟨fun c a b h => ?_, fun c a b h => ?_, by decide⟩
  · have ht := align_wide_eq_one (unpack b).f (k := (unpack a).e.toNat - (unpack b).e.toNat) (by omega)
    exact ⟨ht, fadd_of_small (by omega) (by omega)⟩
  · have ht := align_wide_eq_one (unpack a).f (k := (unpack b).e.toNat - (unpack a).e.toNat) (by omega)
    exact ⟨ht, by rw [faddIsCommutative, fadd_of_small (by omega) (by omega)]⟩

/-! ### Zero patterns -/

theorem fadd_zeroPattern {c : Config} {a z : Word} (he : (unpack z).e = 0#8) (hf : (unpack z).f = 0#23)
    (ha : 25 ≤ (unpack a).e.toNat) : fadd c a z = .ok a := by
  have hez : (unpack z).e.toNat = 0 := by rw [he]; rfl
  refine fadd_of_small (by omega) ?_
  rw [hf, hez]
  exact align_wide_zero_le ha

/-- The lowest bit of a packed significand. -/
theorem pack_lsb (s : Bool) (e : Int) (M : Nat) : (pack s e M).getLsbD 0 = decide (M % 2 = 1) := by
  rw [pack, BitVec.getLsbD_append, if_pos (by decide), BitVec.getLsbD_ofNat, Nat.testBit_zero]
  simp

theorem packRounded_lsb (s : Bool) (e : Int) (M : Nat) :
    (packRounded s e M).getLsbD 0 = decide (M % 2 = 1) := by
  rw [packRounded]
  split
  · next h => rw [pack_lsb, h]; rfl
  · exact pack_lsb s e M

/-- A pattern's lowest bit is its significand's. -/
theorem lsb_eq (w : Word) : w.getLsbD 0 = decide (sig (unpack w).f % 2 = 1) := by
  conv_lhs => rw [← pack_unpack w, pack_lsb]

/-- A tie is rounded to the even significand. -/
theorem roundEven_tie {w : Nat} (h : w % 8 = 4) : roundEven w % 2 = 0 := by
  rw [roundEven_eq]
  split <;> omega

/-- At exponent field 24 a zero pattern is half a unit, and the tie takes an odd mantissa to an even one. -/
theorem fadd_zero_ne_of_odd {c : Config} {a : Word} (he : (unpack a).e.toNat = 24)
    (hodd : (unpack a).f.getLsbD 0 = true) : fadd c a 0x00000000#32 ≠ .ok a := by
  have hz : (unpack 0x00000000#32).e.toNat = 0 := by decide
  have ht : align (wide (unpack 0x00000000#32).f) ((unpack a).e.toNat - (unpack 0x00000000#32).e.toNat) = 4 := by
    rw [align_eq_shrSticky, he, hz]
    decide
  have hfrac : (unpack a).f.toNat % 2 = 1 := by
    rwa [BitVec.getLsbD, Nat.testBit_zero, decide_eq_true_iff] at hodd
  obtain ⟨-, hm⟩ := addPath_of_small (by omega) ht (by decide)
  have hwide := wide_eq (unpack a).f
  have hlt := (unpack a).f.isLt
  rw [fadd, finishResult_of_bit_26 _ _ _ (by omega) (by omega)]
  intro h
  have hlsb := congrArg (·.getLsbD 0) (Except.ok.inj h)
  simp only [packRounded_lsb, lsb_eq a, sig_eq, decide_eq_decide] at hlsb
  have := roundEven_tie (w := (addPath a 0#32).m) (by omega)
  omega

/-- Settles O27: a zero pattern is a small operand from exponent field 25 on, and half a unit at 24. -/
theorem faddOfAZeroPattern : Obligations.FaddOfAZeroPattern := by
  refine ⟨fun c a ha => ⟨?_, ?_⟩, fun _ _ => fadd_zero_ne_of_odd, by decide⟩
  · exact fadd_zeroPattern (by decide) (by decide) ha
  · exact fadd_zeroPattern (by decide) (by decide) ha

end Sys2Proof.Machine
end

section
/-! The obligation on FADD's agreement with IEEE 754 (41_add.md R63): the finite pattern nearest to an exact
value is one of its two neighbours on the grid of its binade, and it is the one that rounding once picks. -/

namespace Sys2Proof.Machine

/-! ### The nearest even number -/

theorem nearestEven_bounds (n d : Nat) : n / d ≤ nearestEven n d ∧ nearestEven n d ≤ n / d + 1 := by
  rw [nearestEven]
  split <;> omega

/-- A fraction, its integral part and its remainder. -/
theorem fraction_split (n : Nat) {d : Nat} (hd : 0 < d) :
    ∃ ρ : ℚ, (n / d : ℚ) = (n / d : Nat) + ρ ∧ 0 ≤ ρ ∧ ρ < 1 ∧
      (2 * ρ ≤ 1 ↔ 2 * (n % d) ≤ d) ∧ (2 * ρ < 1 ↔ 2 * (n % d) < d) := by
  have hd' : (0 : ℚ) < d := by exact_mod_cast hd
  have hsplit : (n : ℚ) = d * (n / d : Nat) + (n % d : Nat) := by exact_mod_cast (Nat.div_add_mod n d).symm
  refine ⟨(n % d : Nat) / d, ?_, by positivity, ?_, ?_, ?_⟩
  · rw [hsplit, add_div, mul_div_cancel_left₀ _ hd'.ne']
  · rw [div_lt_one hd']
    exact_mod_cast Nat.mod_lt n hd
  · rw [← mul_div_assoc, div_le_one hd']
    exact_mod_cast Iff.rfl
  · rw [← mul_div_assoc, div_lt_one hd']
    exact_mod_cast Iff.rfl

theorem abs_sub_nearestEven_le (n : Nat) {d : Nat} (hd : 0 < d) :
    |(n / d : ℚ) - nearestEven n d| ≤ 1 / 2 := by
  obtain ⟨ρ, hρ, h0, h1, hle, hlt⟩ := fraction_split n hd
  rw [hρ, nearestEven, abs_le]
  split
  · next hup =>
    have := not_lt.mp (hlt.not.mpr (by omega))
    push_cast
    constructor <;> linarith
  · next hdown =>
    have := hle.mpr (by omega)
    constructor <;> linarith

/-- A number that is not strictly between the neighbours of a fraction and as near to it as the nearest even
one is that one, or the odd neighbour of a midpoint. -/
theorem eq_nearestEven_or_odd {n d : Nat} (hd : 0 < d) {y : ℚ}
    (hy : y ≤ (n / d : Nat) ∨ ((n / d : Nat) : ℚ) + 1 ≤ y)
    (hnear : |(n / d : ℚ) - y| ≤ |(n / d : ℚ) - nearestEven n d|) :
    y = nearestEven n d ∨ (|(n / d : ℚ) - y| = |(n / d : ℚ) - nearestEven n d| ∧
      ∃ M : Nat, y = M ∧ M % 2 = 1 ∧ n / d ≤ M ∧ M ≤ n / d + 1) := by
  obtain ⟨ρ, hρ, h0, h1, hle, hlt⟩ := fraction_split n hd
  rw [hρ] at hnear ⊢
  by_cases hup : 2 * (n % d) > d ∨ (2 * (n % d) = d ∧ n / d % 2 = 1)
  · have hhalf := not_lt.mp (hlt.not.mpr (by omega))
    have hm : |((n / d : Nat) : ℚ) + ρ - (n / d + 1 : Nat)| = 1 - ρ := by
      rw [abs_of_nonpos (by push_cast; linarith)]
      push_cast
      ring
    rw [nearestEven, if_pos hup, hm] at hnear ⊢
    rcases hy with hy | hy
    · rw [abs_of_nonneg (by linarith)] at hnear ⊢
      have hmid : 2 * (n % d) ≤ d := hle.mp (by linarith)
      exact .inr ⟨by linarith, n / d, by linarith, by omega, le_rfl, Nat.le_succ _⟩
    · rw [abs_of_nonpos (by linarith)] at hnear
      left
      push_cast
      linarith
  · have hhalf := hle.mpr (by omega)
    have hm : |((n / d : Nat) : ℚ) + ρ - (n / d : Nat)| = ρ := by
      rw [add_sub_cancel_left, abs_of_nonneg h0]
    rw [nearestEven, if_neg hup, hm] at hnear ⊢
    rcases hy with hy | hy
    · rw [abs_of_nonneg (by linarith)] at hnear
      left
      linarith
    · rw [abs_of_nonpos (by linarith)] at hnear ⊢
      have hmid : ¬2 * (n % d) < d := hlt.not.mp (by linarith)
      exact .inr ⟨by linarith, n / d + 1, by push_cast; linarith, by omega, Nat.le_succ _, le_rfl⟩

/-! ### Values on the grid of an exponent field -/

/-- The signed unit in the last place of the patterns with sign `s` and exponent field `e`. -/
def ulp (s : Bool) (e : Nat) : ℚ := (if s then -1 else 1) * (2 ^ e / 2 ^ 150)

theorem abs_ulp (s : Bool) (e : Nat) : |ulp s e| = 2 ^ e / 2 ^ 150 := by
  have hpos : (0 : ℚ) < 2 ^ e / 2 ^ 150 := by positivity
  cases s <;> simp [ulp, abs_of_pos hpos]

theorem ulp_ne_zero (s : Bool) (e : Nat) : ulp s e ≠ 0 := by
  rw [← abs_pos, abs_ulp]
  positivity

theorem ulp_add (s : Bool) (e k : Nat) : ulp s (e + k) = ulp s e * 2 ^ k := by
  rw [ulp, ulp, pow_add]
  ring

theorem ulp_not (s : Bool) (e : Nat) : ulp (!s) e = -ulp s e := by
  cases s <;> simp [ulp]

theorem ulp_sign_inj {s t : Bool} {e : Nat} (h : ulp s e = ulp t e) : s = t := by
  by_contra hne
  rw [Bool.eq_not_of_ne hne, ulp_not] at h
  exact ulp_ne_zero t e (by linarith)

theorem ieeeValue_eq_ulp {w : Word} (h : NormalPattern w) :
    ieeeValue w = ulp (unpack w).s (unpack w).e.toNat * sig (unpack w).f := by
  rw [ieeeValue_of_normal h, ulp]
  ring

/-- A rounded significand with an exponent field in range is a normal pattern, a carry included. -/
theorem packRounded_spec (s : Bool) {e M : Nat} (h1 : 1 ≤ e) (hlo : 2 ^ 23 ≤ M) (hhi : M ≤ 2 ^ 24)
    (he : M < 2 ^ 24 ∧ e ≤ 254 ∨ e ≤ 253) :
    NormalPattern (packRounded s e M) ∧ ieeeValue (packRounded s e M) = ulp s e * M := by
  have hpack {e M : Nat} (h1 : 1 ≤ e) (h254 : e ≤ 254) (hlo : 2 ^ 23 ≤ M) (hhi : M < 2 ^ 24) :
      NormalPattern (pack s e M) ∧ ieeeValue (pack s e M) = ulp s e * M := by
    obtain ⟨hs, he, hM⟩ := unpack_pack_of_lt s (show e < 256 by omega) hlo hhi
    have hn : NormalPattern (pack s e M) := by rw [NormalPattern, he]; exact ⟨h1, h254⟩
    exact ⟨hn, by rw [ieeeValue_eq_ulp hn, hs, he, hM]⟩
  by_cases hM : M = 2 ^ 24
  · obtain ⟨hn, hv⟩ := hpack (e := e + 1) (M := 2 ^ 23) (by omega) (by omega) (by omega) (by decide)
    rw [packRounded, if_pos hM]
    refine ⟨hn, hv.trans ?_⟩
    rw [hM, ulp_add]
    push_cast
    ring
  · rw [packRounded, if_neg hM]
    exact hpack h1 (by omega) hlo (by omega)

/-- A pattern below the normal range, in the units of the least normal patterns. -/
theorem pack_subnormal_spec (s : Bool) {K : Nat} (hK : K < 2 ^ 23) :
    FinitePattern (pack s 0 K) ∧ ieeeValue (pack s 0 K) = ulp s 1 * K := by
  have he : (unpack (pack s 0 K)).e = 0#8 := by rw [unpack_pack]; rfl
  refine ⟨by rw [FinitePattern, he]; decide, ?_⟩
  rw [ieeeValue, if_pos he, unpack_pack, BitVec.toNat_ofNat, Nat.mod_eq_of_lt hK, ulp]
  ring

/-- A normal pattern is determined by its value. -/
theorem normal_ext {v w : Word} (hv : NormalPattern v) (hw : NormalPattern w)
    (h : ieeeValue v = ieeeValue w) : v = w := by
  rw [ieeeValue_eq_ulp hv, ieeeValue_eq_ulp hw] at h
  have habs := congrArg abs h
  rw [abs_mul, abs_mul, abs_ulp, abs_ulp, Nat.abs_cast, Nat.abs_cast] at habs
  have hmag : sig (unpack v).f * 2 ^ (unpack v).e.toNat = sig (unpack w).f * 2 ^ (unpack w).e.toNat := by
    rw [Nat.mul_comm, Nat.mul_comm (sig _)]
    field_simp at habs
    exact_mod_cast habs
  obtain ⟨he, hf⟩ := sig_exp_unique (sig_lower _) (sig_upper _) (sig_lower _) (sig_upper _) hmag
  rw [he, hf] at h
  have hsig : (sig (unpack w).f : ℚ) ≠ 0 := Nat.cast_ne_zero.mpr (sig_ne_zero _)
  exact unpack_injective (ulp_sign_inj (mul_right_cancel₀ hsig h)) (BitVec.eq_of_toNat_eq he)
    ((sig_inj _ _).mp hf)

/-- No normal pattern lies strictly between two neighbours on the grid of an exponent field. -/
theorem normal_on_grid {w : Word} (h : NormalPattern w) (s : Bool) (e : Nat) {F : Nat} (hF : 2 ^ 23 ≤ F) :
    ∃ y : ℚ, ieeeValue w = ulp s e * y ∧ (y ≤ F ∨ F + 1 ≤ y) := by
  rw [ieeeValue_eq_ulp h]
  by_cases hs : (unpack w).s = s
  · rcases le_or_gt e (unpack w).e.toNat with he | he
    · obtain ⟨k, hk⟩ := Nat.exists_eq_add_of_le he
      refine ⟨(sig (unpack w).f * 2 ^ k : Nat), ?_, ?_⟩
      · rw [hs, hk, ulp_add]
        push_cast
        ring
      · norm_cast
        omega
    · obtain ⟨k, hk⟩ := Nat.exists_eq_add_of_lt he
      refine ⟨sig (unpack w).f / 2 ^ (k + 1), ?_, .inl ?_⟩
      · rw [hs, hk, Nat.add_assoc, ulp_add]
        field_simp
      · rw [div_le_iff₀ (by positivity)]
        have hpow : 2 ^ 1 ≤ 2 ^ (k + 1) := Nat.pow_le_pow_right Nat.two_pos (Nat.le_add_left 1 k)
        have hsig := (sig_upper (unpack w).f).le.trans (Nat.mul_le_mul hF hpow)
        exact_mod_cast hsig
  · refine ⟨-(2 ^ (unpack w).e.toNat / 2 ^ e * sig (unpack w).f), ?_, .inl ?_⟩
    · rw [Bool.eq_not_of_ne hs, ulp_not, ulp, ulp]
      field_simp
    · have h0 : (0 : ℚ) ≤ 2 ^ (unpack w).e.toNat / 2 ^ e * sig (unpack w).f := by positivity
      have hF0 : (0 : ℚ) ≤ F := by positivity
      linarith

/-! ### The IEEE result on that grid -/

/-- `IeeeRounds` against one other pattern, in units of `c`. -/
theorem IeeeRounds.scaled {q c t y x : ℚ} {w z : Word} (h : IeeeRounds q w) (hc : c ≠ 0) (hq : q = c * t)
    (hw : ieeeValue w = c * y) (hz : FinitePattern z) (hx : ieeeValue z = c * x) :
    |t - y| ≤ |t - x| ∧ (|t - y| = |t - x| → z = w ∨ w.getLsbD 0 = false) := by
  obtain ⟨-, -, hnear⟩ := h
  have hz := hnear z hz
  have hpos : 0 < |c| := abs_pos.mpr hc
  rw [hq, hw, hx, ← mul_sub, ← mul_sub, abs_mul, abs_mul] at hz
  exact ⟨le_of_mul_le_mul_left hz.1 hpos, fun heq => hz.2 (by rw [heq])⟩

/-- Below the overflow threshold, the last significand of the greatest binade is not rounded up. -/
theorem IeeeRounds.lt_threshold {q t : ℚ} {w : Word} {s : Bool} (h : IeeeRounds q w)
    (hq : q = ulp s 254 * t) : t < 2 ^ 24 - 1 / 2 := by
  obtain ⟨-, hlt, -⟩ := h
  rw [hq, abs_mul, abs_ulp] at hlt
  have hunit : (2 : ℚ) ^ 254 / 2 ^ 150 = 2 ^ 104 := by norm_num
  rw [hunit] at hlt
  have habs := le_abs_self t
  norm_num at hlt ⊢
  linarith

/-- The normal IEEE result for a value in the binade of exponent field `e` is the value rounded once to the
binade's grid. -/
theorem IeeeRounds.eq_packRounded {q : ℚ} {w : Word} {s : Bool} {e n d : Nat} (h : IeeeRounds q w)
    (h1 : 1 ≤ e) (h254 : e ≤ 254) (hd : 0 < d) (hlo : 2 ^ 23 * d ≤ n) (hhi : n < 2 ^ 24 * d)
    (hq : q = ulp s e * (n / d)) : w = packRounded s e (nearestEven n d) := by
  have hF : 2 ^ 23 ≤ n / d := (Nat.le_div_iff_mul_le hd).mpr hlo
  have hF' : n / d < 2 ^ 24 := (Nat.div_lt_iff_lt_mul hd).mpr hhi
  obtain ⟨hm, hm'⟩ := nearestEven_bounds n d
  have hrange : nearestEven n d < 2 ^ 24 ∧ e ≤ 254 ∨ e ≤ 253 := by
    by_contra hout
    obtain rfl : e = 254 := by omega
    have hcarry : nearestEven n d = 2 ^ 24 := by omega
    have hhalf := (abs_le.mp (abs_sub_nearestEven_le n hd)).1
    have := h.lt_threshold hq
    rw [hcarry] at hhalf
    push_cast at hhalf
    linarith
  obtain ⟨hnormal, hvalue⟩ := packRounded_spec s h1 (hF.trans hm) (by omega) hrange
  have hw : NormalPattern w := h.1
  obtain ⟨y, hy, hgrid⟩ := normal_on_grid hw s e hF
  obtain ⟨hnear, htie⟩ := h.scaled (ulp_ne_zero s e) hq hy hnormal.2 hvalue
  rcases eq_nearestEven_or_odd hd hgrid hnear with heq | ⟨heq, M, hM, hodd, hlo, hhi⟩
  · exact normal_ext hw hnormal (by rw [hy, hvalue, heq])
  · obtain ⟨hnormal', hvalue'⟩ := packRounded_spec s (M := M) h1 (by omega) (by omega) (by omega)
    have hwM : w = packRounded s e M := normal_ext hw hnormal' (by rw [hy, hvalue', hM])
    refine ((htie heq).resolve_right ?_).symm
    rw [hwM, packRounded_lsb, hodd]
    decide

/-! ### Rounding an exact magnitude -/

/-- A multiple of the least positive value that has a normal IEEE result is not below the normal range, where it
would be its own result. -/
theorem IeeeRounds.normal_range {q : ℚ} {w : Word} {s : Bool} {N lo : Nat} (h : IeeeRounds q w)
    (hlo : 1 ≤ lo) (hq : q = ulp s lo * N) : 2 ^ 24 ≤ N * 2 ^ lo := by
  obtain ⟨k, rfl⟩ := Nat.exists_eq_add_of_le hlo
  by_contra hlt
  have hK : N * 2 ^ k < 2 ^ 23 := by
    rw [Nat.pow_add, Nat.pow_one, Nat.mul_left_comm] at hlt
    omega
  obtain ⟨hz, hzv⟩ := pack_subnormal_spec s hK
  obtain ⟨hw, -, hnear⟩ := h
  have hqz : q = ieeeValue (pack s 0 (N * 2 ^ k)) := by
    rw [hzv, hq, ulp_add]
    push_cast
    ring
  obtain ⟨hle, -⟩ := hnear _ hz
  rw [← hqz, sub_self, abs_zero, abs_nonpos_iff, sub_eq_zero, hqz, hzv, ieeeValue_eq_ulp hw] at hle
  have habs := congrArg abs hle
  rw [abs_mul, abs_mul, abs_ulp, abs_ulp, Nat.abs_cast, Nat.abs_cast] at habs
  have hmag : 2 ^ (unpack w).e.toNat * sig (unpack w).f = 2 ^ 1 * (N * 2 ^ k) := by
    field_simp at habs
    exact_mod_cast habs.symm
  have hlow := Nat.mul_le_mul (Nat.pow_le_pow_right Nat.two_pos hw.1) (sig_lower (unpack w).f)
  omega

/-- A magnitude that has an IEEE result is below `2^128`. -/
theorem IeeeRounds.overflow_range {q : ℚ} {w : Word} {s : Bool} {N lo : Nat} (h : IeeeRounds q w)
    (hq : q = ulp s lo * N) : N * 2 ^ lo < 2 ^ 128 * 2 ^ 150 := by
  obtain ⟨-, hmax, -⟩ := h
  rw [hq, abs_mul, abs_ulp, Nat.abs_cast, div_mul_eq_mul_div, div_lt_iff₀ (by positivity)] at hmax
  have hmax' : (2 : ℚ) ^ lo * N < 2 ^ 128 * 2 ^ 150 := hmax.trans_le (by norm_num)
  rw [Nat.mul_comm]
  exact_mod_cast hmax'

/-- The binade of a magnitude that has a normal IEEE result is that of an exponent field 1 to 254. -/
theorem IeeeRounds.binade {q : ℚ} {w : Word} {s : Bool} {N lo : Nat} (h : IeeeRounds q w) (hlo : 1 ≤ lo)
    (hq : q = ulp s lo * N) : N ≠ 0 ∧ ∃ e, 1 ≤ e ∧ e ≤ 254 ∧ lo + Nat.log2 N = e + 23 := by
  have hmin := h.normal_range hlo hq
  have hmax := h.overflow_range hq
  have hN : N ≠ 0 := fun h0 => by simp [h0] at hmin
  have hlower : 2 ^ 24 < 2 ^ (Nat.log2 N + 1 + lo) := by
    rw [Nat.pow_add]
    exact hmin.trans_lt (Nat.mul_lt_mul_of_pos_right Nat.lt_log2_self (Nat.two_pow_pos lo))
  have hupper : 2 ^ (Nat.log2 N + lo) < 2 ^ (128 + 150) := by
    rw [Nat.pow_add, Nat.pow_add 2 128]
    exact (Nat.mul_le_mul_right _ (Nat.log2_self_le hN)).trans_lt hmax
  have h24 := (Nat.pow_lt_pow_iff_right Nat.one_lt_two).mp hlower
  have h278 := (Nat.pow_lt_pow_iff_right Nat.one_lt_two).mp hupper
  exact ⟨hN, lo + Nat.log2 N - 23, by omega, by omega, by omega⟩

/-- The normal IEEE result for an exact magnitude is the magnitude rounded once. -/
theorem IeeeRounds.eq_roundExact {q : ℚ} {w : Word} {s : Bool} {N lo : Nat} (h : IeeeRounds q w)
    (hlo : 1 ≤ lo) (hq : q = ulp s lo * N) : w = roundExact s N lo := by
  obtain ⟨hN, e, h1, h254, he⟩ := h.binade hlo hq
  have hlog := Nat.log2_self_le hN
  have hlog' := Nat.lt_log2_self (n := N)
  have hscale : ulp s lo * 2 ^ Nat.log2 N = ulp s e * 2 ^ 23 := by rw [← ulp_add, ← ulp_add, he]
  have hexp : (lo : Int) + Nat.log2 N - 23 = e := by omega
  rw [roundExact, hexp]
  refine h.eq_packRounded h1 h254 (Nat.two_pow_pos _) ?_ ?_ ?_
  · rw [Nat.mul_comm]
    exact Nat.mul_le_mul_right _ hlog
  · rw [Nat.pow_succ] at hlog'
    omega
  · rw [hq]
    push_cast
    rw [← mul_div_assoc, eq_div_iff (by positivity)]
    linear_combination (N : ℚ) * hscale

/-! ### FADD -/

theorem ieeeValue_eq_signedUnits {w : Word} (h : NormalPattern w) {lo : Nat} (hlo : lo ≤ (unpack w).e.toNat) :
    ieeeValue w = ulp false lo * signedUnits w lo := by
  obtain ⟨k, hk⟩ := Nat.exists_eq_add_of_le hlo
  rw [ieeeValue_eq_ulp h, signedUnits_eq, hk, Nat.add_sub_cancel_left, ulp_add]
  cases (unpack w).s <;> simp [ulp, signed] <;> ring

theorem ulp_mul_natAbs (e : Nat) (S : Int) : ulp (decide (S < 0)) e * S.natAbs = ulp false e * S := by
  rw [Nat.cast_natAbs]
  by_cases h : S < 0
  · simp [ulp, h, abs_of_neg]
  · simp [ulp, h, abs_of_nonneg (not_lt.mp h)]

/-- The sum of the IEEE values is the exact sum of the working values. -/
theorem ieeeValue_add {a b : Word} (ha : NormalPattern a) (hb : NormalPattern b) :
    ieeeValue a + ieeeValue b =
      ulp (decide (exactSum a b < 0)) (min (unpack a).e.toNat (unpack b).e.toNat) * (exactSum a b).natAbs := by
  rw [ulp_mul_natAbs, ieeeValue_eq_signedUnits ha (Nat.min_le_left _ _),
    ieeeValue_eq_signedUnits hb (Nat.min_le_right _ _), ← mul_add, exactSum]
  push_cast
  rfl

/-- Settles O33: FADD is the reference off the collapse pairs, and the reference rounds to the normal IEEE
result. -/
theorem faddAgreesWithIeee : Obligations.FaddAgreesWithIeee := by
  intro c a b ha hb hm
  have hsum := ieeeValue_add ha hb
  refine ⟨fun w hw => ?_, fun hzero => ?_⟩
  · have hlo : 1 ≤ min (unpack a).e.toNat (unpack b).e.toNat := Nat.le_min.mpr ⟨ha.1, hb.1⟩
    have hS : exactSum a b ≠ 0 := Int.natAbs_ne_zero.mp (hw.binade hlo hsum).1
    have hnot : ¬(exactSum a b = 0 ∨ c.collapseShift = .source23 ∧ CollapsePair a b) := by
      rintro (h0 | ⟨hc, hpair⟩)
      · exact hS h0
      · rcases hm with hm | hm
        · cases hc.symm.trans hm
        · exact hm ((addPath_m_eq_four_iff a b).mpr hpair)
    rw [fadd_eq_addReference, addReference, if_neg hnot, ← hw.eq_roundExact hlo hsum]
  · rw [hzero, zero_eq_mul, or_iff_right (ulp_ne_zero _ _), Nat.cast_eq_zero, Int.natAbs_eq_zero] at hsum
    rw [fadd_eq_addReference, addReference, if_pos (.inl hsum)]

end Sys2Proof.Machine
end

section
/-! The obligations on FMUL's product, shifts and identities (42_multiply.md R65, R66, R69): the window stands for
the exact product of the significands, so FMUL rounds the exact product once. -/

namespace Sys2Proof.Machine

/-! ### FMUL rounds the exact product -/

theorem normalize_ne_collapsed (limit : CollapseShift) {m : Nat} (h : 2 ^ 3 ≤ m) :
    normalize limit m ≠ .ok .collapsed := by
  have hm : m ≠ 0 := by omega
  have hlog := (Nat.le_log2 hm).mpr h
  have hlim := collapseLimit_ge limit
  rw [ne_eq, normalize_collapsed_iff]
  omega

/-- FMUL is the reference product, on all operands: `E` counts the 20 bits that the window drops, and its three
GRS bits. -/
theorem fmul_eq_mulReference (c : Config) (a b : Word) : fmul c a b = .ok (mulReference a b) := by
  obtain ⟨hlo, -⟩ := mulWindow_bounds (unpack a).f (unpack b).f
  have hround := roundExact_of_roundsToOdd (roundsToOdd_shrSticky (sig (unpack a).f * sig (unpack b).f) 20)
    (.inl (by omega)) (by omega) ((unpack a).s ^^ (unpack b).s)
    ((unpack a).e.toNat + (unpack b).e.toNat - 150)
  have hE : unbias (unpack a).e + unbias (unpack b).e + 127 - 3 =
      (unpack a).e.toNat + (unpack b).e.toNat - 150 + (20 : Nat) := by
    rw [unbias, unbias]
    omega
  simp only [fmul, mulPath_eq_product]
  rw [finishResult_eq_roundExact (normalize_ne_collapsed _ (by omega)), hE, ← hround, mulReference, sig_eq, sig_eq]

/-- Settles O7: completion writes the reference product, `ERR`, `CNT` and `STATE`. -/
theorem fmulAnswersTheRoundedProduct : Obligations.FmulAnswersTheRoundedProduct := by
  intro a b s
  rw [exec, execFmul, fmul_eq_mulReference, answer_ok]
  rfl

/-! ### Shifts and carry -/

@[simp] theorem passes_r1 (w : Nat) (sh e : Int) : (passes w sh e).r1 = roundEven w := by
  unfold passes; split <;> simp [*]

theorem passes_sh2_eq_neg_one_iff (w : Nat) (sh e : Int) :
    (passes w sh e).sh2 = -1 ↔ (passes w sh e).r1 = 2 ^ 24 := by
  rw [passes_sh2, passes_r1]
  split
  · next h => simp [h]
  · next h => exact iff_of_false (by decide) h

/-- What `finish` makes of a window with its highest set bit at 26 or 27: a right shift leaves no half unit to
carry from, and without a shift the carry starts at the last half unit. -/
theorem finish_mulWindow (limit : CollapseShift) (e : Int) {W : Nat} (hlo : 2 ^ 26 ≤ W) (hhi : W < 2 ^ 28 - 12) :
    ∃ p, finish limit W e = .ok (.normal p) ∧ (2 ^ 27 ≤ W → p.sh1 = -1) ∧ (W < 2 ^ 27 → p.sh1 = 0) ∧
      (p.sh2 = -1 ↔ p.r1 = 2 ^ 24) ∧ (p.sh2 = -1 → p.sh1 = 0 ∧ 0x7FFFFFC ≤ W) := by
  rcases Nat.lt_or_ge W (2 ^ 27) with hW | hW
  · refine ⟨_, finish_of_bit_26 limit e hlo hW, by omega, fun _ => passes_sh1 .., passes_sh2_eq_neg_one_iff ..,
      fun hcarry => ⟨passes_sh1 .., ?_⟩⟩
    rw [passes_sh2_eq_neg_one_iff, passes_r1] at hcarry
    obtain ⟨-, -, hhalf⟩ := roundEven_bounds hlo hW
    exact hhalf.mp hcarry
  · have hle := shrSticky_le W 1
    have hsh2 : (passes (shrSticky W 1) (-1) e).sh2 = 0 := passes_sh2_of_lt (by omega) _ _
    exact ⟨_, finish_of_bit_27 limit e hW (by omega), fun _ => passes_sh1 .., by omega,
      passes_sh2_eq_neg_one_iff .., by simp [hsh2]⟩

/-- Bit 27 of the window is bit 47 of the product. -/
theorem mulWindow_bit_27_iff {P : Nat} (h : 2 ^ 46 ≤ P) : 2 ^ 27 ≤ shrSticky P 20 ↔ 2 ^ 47 ≤ P := by
  constructor
  · contrapose!
    exact fun hP => (shrSticky_bounds (a := 26) (b := 27) h hP (by decide)).2
  · intro hP
    have hdiv : 2 ^ 27 ≤ P / 2 ^ 20 := by omega
    rw [shrSticky_of_ne_zero P (by decide)]
    exact hdiv.trans Nat.left_le_or

/-- Settles O28: the product's bit 47 decides the shift. -/
theorem fmulShiftsAndCarry : Obligations.FmulShiftsAndCarry := by
  refine ⟨fun limit a b => ?_, by decide, by decide, by decide, by decide⟩
  obtain ⟨hlo, hhi⟩ := mulWindow_bounds (unpack a).f (unpack b).f
  have hP := Nat.mul_le_mul (sig_lower (unpack a).f) (sig_lower (unpack b).f)
  have hbit := mulWindow_bit_27_iff (P := sig (unpack a).f * sig (unpack b).f) (by omega)
  obtain ⟨p, hp, hright, hnone, hcarry⟩ :=
    finish_mulWindow limit (unbias (unpack a).e + unbias (unpack b).e + 127) hlo hhi
  exact ⟨_, p, mulPath_eq_product a b, hp, fun h => hright (hbit.mpr h),
    fun h => hnone (lt_of_not_ge (hbit.not.mpr h.not_ge)), hcarry⟩

/-! ### Identity, commutativity and sign -/

/-- A significand is its own rounding. -/
theorem roundExact_significand (s : Bool) {M : Nat} (hlo : 2 ^ 23 ≤ M) (hhi : M < 2 ^ 24) (e : Int) :
    roundExact s M e = pack s e M := by
  have hlog : Nat.log2 M = 23 := (Nat.log2_eq_iff (by omega)).mpr ⟨hlo, hhi⟩
  have hround : nearestEven (M * 2 ^ 23) (2 ^ 23) = M := by
    rw [← Nat.one_mul (2 ^ 23), ← Nat.mul_assoc, nearestEven_scale _ _ (by decide)]
    simp [nearestEven, Nat.mod_one]
  rw [roundExact, hlog, hround, packRounded, if_neg (by omega)]
  congr 1
  omega

theorem mulReference_comm (a b : Word) : mulReference a b = mulReference b a := by
  simp only [mulReference, Bool.xor_comm (unpack a).s, Nat.mul_comm (2 ^ 23 + (unpack a).f.toNat),
    Int.add_comm (unpack a).e.toNat]

/-- A factor of 1.0 shifts the significand by 23 bits and leaves exponent and sign as they are. -/
theorem mulReference_one (a : Word) : mulReference a 0x3F800000#32 = a := by
  have hone : unpack 0x3F800000#32 = { s := false, e := 127#8, f := 0#23 } := by decide
  have hround := roundExact_of_roundsToOdd (k := 23) (x := sig (unpack a).f * 2 ^ 23) (.inl (by push_cast; rfl))
    (.inr rfl) (sig_ne_zero (unpack a).f) (unpack a).s ((unpack a).e.toNat + 127 - 150)
  have he : ((unpack a).e.toNat : Int) + 127 - 150 + (23 : Nat) = (unpack a).e.toNat := by omega
  rw [he, roundExact_significand _ (sig_lower _) (sig_upper _), pack_unpack, sig_eq] at hround
  simpa [mulReference, hone] using hround

theorem packRounded_sign (s : Bool) (e : Int) (M : Nat) : (packRounded s e M).getLsbD 31 = s := by
  have hpack (e : Int) (M : Nat) : (pack s e M).getLsbD 31 = s := congrArg Fields.s (unpack_pack s e M)
  rw [packRounded]
  split
  · exact hpack _ _
  · exact hpack _ _

/-- Settles O29: the reference has each of the three properties. -/
theorem fmulIdentityCommutativityAndSign : Obligations.FmulIdentityCommutativityAndSign := by
  have hcomm (c : Config) (a b : Word) : fmul c a b = fmul c b a := by
    rw [fmul_eq_mulReference, fmul_eq_mulReference, mulReference_comm]
  have hone (c : Config) (a : Word) : fmul c a 0x3F800000#32 = .ok a := by
    rw [fmul_eq_mulReference, mulReference_one]
  refine ⟨fun c a => ⟨hone c a, hcomm c a _ ▸ hone c a⟩, hcomm, fun c a b y h => ?_⟩
  rw [fmul_eq_mulReference] at h
  cases h
  exact packRounded_sign ..

end Sys2Proof.Machine
end

section
/-! The obligations on FMUL's agreement with IEEE 754 (42_multiply.md R70): an exact magnitude is `n / 2^300`; in the
normal range rounding it once gives the normal IEEE result, and just below that range IEEE 754 rounds on the coarser
grid of the subnormal numbers. -/

namespace Sys2Proof.Machine

/-! ### Magnitudes in units of `2^-300` -/

theorem abs_ulp_zero_mul (s : Bool) (n : Nat) : |ulp s 0 * (n / 2 ^ 150 : ℚ)| = n / 2 ^ 150 / 2 ^ 150 := by
  have hn : (0 : ℚ) ≤ n / 2 ^ 150 := by positivity
  rw [abs_mul, abs_ulp, abs_of_nonneg hn]
  ring

theorem abs_ulp_zero_mul_lt_iff (s : Bool) (n m : Nat) :
    |ulp s 0 * (n / 2 ^ 150 : ℚ)| < m / 2 ^ 150 / 2 ^ 150 ↔ n < m := by
  rw [abs_ulp_zero_mul, div_lt_div_iff_of_pos_right (by positivity), div_lt_div_iff_of_pos_right (by positivity),
    Nat.cast_lt]

/-- The least normal number is `2^174` units. -/
theorem abs_ulp_zero_mul_lt_least_normal_iff (s : Bool) (n : Nat) :
    |ulp s 0 * (n / 2 ^ 150 : ℚ)| < 1 / 2 ^ 126 ↔ n < 2 ^ 174 := by
  rw [← abs_ulp_zero_mul_lt_iff s]
  norm_num

/-- The same magnitude on the grid of another exponent field. -/
theorem ulp_zero_mul (s : Bool) (n e : Nat) :
    ulp s 0 * (n / 2 ^ 150 : ℚ) = ulp s e * (n / (2 ^ (e + 150) : Nat)) := by
  have he := ulp_add s 0 e
  rw [Nat.zero_add] at he
  rw [he]
  push_cast
  rw [pow_add]
  field_simp

/-- A magnitude in the binade of exponent field `e` is rounded to that binade's grid. -/
theorem roundExact_of_binade (s : Bool) {n e : Nat} (hlo : 2 ^ (e + 173) ≤ n) (hhi : n < 2 ^ (e + 174)) :
    roundExact s n (-150) = packRounded s e (nearestEven n (2 ^ (e + 150))) := by
  have hn : n ≠ 0 := (Nat.two_pow_pos _).trans_le hlo |>.ne'
  have hlog : Nat.log2 n = e + 173 := (Nat.log2_eq_iff hn).mpr ⟨hlo, hhi⟩
  have hround : nearestEven (n * 2 ^ 23) (2 ^ (e + 173)) = nearestEven n (2 ^ (e + 150)) :=
    nearestEven_congr (by positivity) (by positivity) (by rw [Nat.mul_assoc, ← Nat.pow_add, Nat.add_comm 23])
  have hexp : (-150 : Int) + (e + 173 : Nat) - 23 = e := by omega
  rw [roundExact, hlog, hexp, hround]

/-- In the normal range, rounding once gives the normal IEEE result. -/
theorem IeeeRounds.eq_roundExact_of_normal_range {s : Bool} {n : Nat} {w : Word}
    (h : IeeeRounds (ulp s 0 * (n / 2 ^ 150)) w) (hn : 2 ^ 174 ≤ n) : w = roundExact s n (-150) := by
  have hn0 : n ≠ 0 := by omega
  have hmax : n < 2 ^ (128 + 150 + 150) := by
    obtain ⟨-, hlt, -⟩ := h
    have hlt : (n / 2 ^ 150 / 2 ^ 150 : ℚ) < 2 ^ 128 := abs_ulp_zero_mul s n ▸ hlt.trans (by norm_num)
    rw [div_lt_iff₀ (by positivity), div_lt_iff₀ (by positivity), ← pow_add, ← pow_add] at hlt
    exact_mod_cast hlt
  have hlog := (Nat.le_log2 hn0).mpr hn
  have hlog' := (Nat.log2_lt hn0).mpr hmax
  have hlo := Nat.log2_self_le hn0
  have hhi := Nat.lt_log2_self (n := n)
  obtain ⟨e, he⟩ : ∃ e, Nat.log2 n = e + 173 := ⟨Nat.log2 n - 173, by omega⟩
  rw [he] at hlo hhi
  rw [roundExact_of_binade s hlo hhi]
  refine h.eq_packRounded (by omega) (by omega) (Nat.two_pow_pos _) ?_ ?_ (ulp_zero_mul s n e)
  · calc 2 ^ 23 * 2 ^ (e + 150) = 2 ^ (e + 173) := by ring
      _ ≤ n := hlo
  · calc n < 2 ^ (e + 174) := hhi
      _ = 2 ^ 24 * 2 ^ (e + 150) := by ring

/-! ### Just below the normal range -/

/-- The finite values are whole multiples of the least positive one; the normal ones are large multiples. -/
theorem ieeeValue_eq_ulp_one_mul {z : Word} (h : FinitePattern z) :
    ∃ m : Nat, ieeeValue z = ulp (unpack z).s 1 * m ∧ (NormalPattern z → 2 ^ 23 ≤ m) := by
  by_cases he : (unpack z).e = 0#8
  · refine ⟨(unpack z).f.toNat, ?_, fun hn => by simp [NormalPattern, he] at hn⟩
    rw [ieeeValue, if_pos he, ulp]
    ring
  · have hne : (unpack z).e.toNat ≠ 0 := fun h0 => he (BitVec.eq_of_toNat_eq h0)
    have hn : NormalPattern z := ⟨by omega, h⟩
    obtain ⟨k, hk⟩ := Nat.exists_eq_add_of_le hn.1
    refine ⟨2 ^ k * sig (unpack z).f, ?_, fun _ => ?_⟩
    · rw [ieeeValue_eq_ulp hn, hk, ulp_add]
      push_cast
      ring
    · exact (sig_lower _).trans (Nat.le_mul_of_pos_left _ (Nat.two_pow_pos k))

/-- The same for a unit of either sign. -/
theorem ieeeValue_eq_multiple (s : Bool) {z : Word} (h : FinitePattern z) :
    ∃ k : Int, ieeeValue z = ulp s 1 * k ∧ (NormalPattern z → 2 ^ 23 ≤ |k|) := by
  obtain ⟨m, hm, hnormal⟩ := ieeeValue_eq_ulp_one_mul h
  by_cases hs : (unpack z).s = s
  · exact ⟨m, by rw [hm, hs, Int.cast_natCast], fun hn => by rw [Nat.abs_cast]; exact_mod_cast hnormal hn⟩
  · refine ⟨-m, ?_, fun hn => by rw [abs_neg, Nat.abs_cast]; exact_mod_cast hnormal hn⟩
    rw [hm, Bool.eq_not_of_ne hs, ulp_not]
    push_cast
    ring

theorem least_normal_spec (s : Bool) :
    NormalPattern (pack s 1 (2 ^ 23)) ∧ ieeeValue (pack s 1 (2 ^ 23)) = ulp s 1 * 2 ^ 23 := by
  have h := packRounded_spec s (e := 1) (M := 2 ^ 23) le_rfl le_rfl (by decide) (by decide)
  rw [packRounded, if_neg (by decide)] at h
  exact_mod_cast h

/-- Below the normal range, the only normal IEEE result is the least normal number, for values at most half a
subnormal unit below it. -/
theorem IeeeRounds.eq_least_normal {s : Bool} {t : ℚ} {w : Word} (h : IeeeRounds (ulp s 1 * t) w) (h0 : 0 < t)
    (ht : t < 2 ^ 23) : w = pack s 1 (2 ^ 23) ∧ 2 ^ 23 - 1 / 2 ≤ t := by
  obtain ⟨hleast, hvalue⟩ := least_normal_spec s
  obtain ⟨hbelow, hvalue'⟩ := pack_subnormal_spec s (K := 2 ^ 23 - 1) (by decide)
  have hw : NormalPattern w := h.1
  obtain ⟨k, hk, hlarge⟩ := ieeeValue_eq_multiple s hw.2
  obtain ⟨hnear, -⟩ := h.scaled (ulp_ne_zero s 1) rfl hk hleast.2 hvalue
  obtain ⟨hnear', -⟩ := h.scaled (ulp_ne_zero s 1) rfl hk hbelow hvalue'
  rw [abs_sub_comm t (2 ^ 23), abs_of_pos (sub_pos.mpr ht), abs_le] at hnear
  have hk23 : k = 2 ^ 23 := by
    have hle : (k : ℚ) ≤ 2 ^ 23 := by linarith
    have hgt : (-2 ^ 23 : ℚ) < k := by linarith
    have hle : k ≤ 2 ^ 23 := by exact_mod_cast hle
    have hgt : -2 ^ 23 < k := by exact_mod_cast hgt
    have := le_abs.mp (hlarge hw)
    omega
  have hkq : (k : ℚ) = 2 ^ 23 := by exact_mod_cast hk23
  rw [hkq] at hk hnear'
  refine ⟨normal_ext hw hleast (hk.trans hvalue.symm), ?_⟩
  by_contra hlt
  rw [not_le] at hlt
  have hcloser : |t - (2 ^ 23 - 1 : Nat)| < 2 ^ 23 - t := by
    rw [abs_lt]
    push_cast
    constructor <;> linarith
  rw [abs_sub_comm t (2 ^ 23), abs_of_pos (sub_pos.mpr ht)] at hnear'
  linarith

/-- A value at most half a subnormal unit below the least normal number is rounded to it. -/
theorem ieeeRounds_least_normal (s : Bool) {t : ℚ} (ht : t < 2 ^ 23) (ht' : 2 ^ 23 - 1 / 2 ≤ t) :
    IeeeRounds (ulp s 1 * t) (pack s 1 (2 ^ 23)) := by
  obtain ⟨hleast, hvalue⟩ := least_normal_spec s
  have heven : (pack s 1 (2 ^ 23)).getLsbD 0 = false := pack_lsb ..
  refine ⟨hleast, ?_, fun z hz => ⟨?_, fun _ => .inr heven⟩⟩
  · rw [abs_mul, abs_ulp, abs_of_nonneg (by linarith)]
    norm_num
    linarith
  · obtain ⟨k, hk, -⟩ := ieeeValue_eq_multiple s hz
    rw [hvalue, hk, ← mul_sub, ← mul_sub, abs_mul, abs_mul]
    refine mul_le_mul_of_nonneg_left ?_ (abs_nonneg _)
    rw [abs_sub_comm t (2 ^ 23), abs_of_pos (sub_pos.mpr ht), le_abs]
    rcases le_or_gt k (2 ^ 23 - 1) with hle | hgt
    · have hle : (k : ℚ) ≤ 2 ^ 23 - 1 := by exact_mod_cast hle
      exact .inl (by linarith)
    · have hge : (2 : ℚ) ^ 23 ≤ k := by exact_mod_cast Int.lt_iff_add_one_le.mp hgt
      exact .inr (by linarith)

/-- A value in the top unit of the binade of exponent field 0 rounds up from the middle of that unit on. -/
theorem roundExact_of_top_unit (s : Bool) {n : Nat} (hlo : 2 ^ 174 - 2 ^ 150 ≤ n) (hhi : n < 2 ^ 174) :
    roundExact s n (-150) =
      if n < 2 ^ 174 - 2 ^ 149 then pack s 1 (2 ^ 23) - 1#32 else pack s 1 (2 ^ 23) := by
  have hpred : pack s 1 (2 ^ 23) - 1#32 = pack s 0 (2 ^ 24 - 1) := by cases s <;> decide
  have hmod : n % 2 ^ 150 = n - (2 ^ 174 - 2 ^ 150) := by omega
  have hdiv : n / 2 ^ 150 = 2 ^ 24 - 1 := by omega
  rw [roundExact_of_binade s (e := 0) (by omega) hhi, nearestEven, Nat.zero_add, hmod, hdiv, hpred]
  by_cases hdown : n < 2 ^ 174 - 2 ^ 149
  · rw [if_pos hdown, if_neg (by omega)]
    exact if_neg (by decide)
  · rw [if_neg hdown, if_pos (by omega)]
    exact if_pos rfl

/-- Just below the normal range, rounding once gives the normal IEEE result or the pattern below it. -/
theorem IeeeRounds.roundExact_below_normal_range {s : Bool} {n : Nat} {w : Word}
    (h : IeeeRounds (ulp s 0 * (n / 2 ^ 150)) w) (h0 : 0 < n) (hn : n < 2 ^ 174) :
    roundExact s n (-150) = if n < 2 ^ 174 - 2 ^ 149 then w - 1#32 else w := by
  have h0' : (0 : ℚ) < n := by exact_mod_cast h0
  have ht : (n / (2 ^ (1 + 150) : Nat) : ℚ) < 2 ^ 23 := by
    rw [div_lt_iff₀ (by positivity)]
    exact_mod_cast hn
  rw [ulp_zero_mul s n 1] at h
  obtain ⟨rfl, hnear⟩ := h.eq_least_normal (by positivity) ht
  rw [le_div_iff₀ (by positivity)] at hnear
  have hlo : ((2 ^ 174 - 2 ^ 150 : Nat) : ℚ) ≤ n := le_trans (by norm_num) hnear
  exact roundExact_of_top_unit s (by exact_mod_cast hlo) hn

/-! ### FMUL -/

/-- The magnitude of a product in units of `2^-300`. -/
def productUnits (a b : Word) : Nat :=
  sig (unpack a).f * sig (unpack b).f * 2 ^ ((unpack a).e.toNat + (unpack b).e.toNat)

theorem productUnits_pos (a b : Word) : 0 < productUnits a b :=
  Nat.mul_pos (Nat.mul_pos (Nat.pos_of_ne_zero (sig_ne_zero _)) (Nat.pos_of_ne_zero (sig_ne_zero _)))
    (Nat.two_pow_pos _)

theorem mulReference_eq_roundExact (a b : Word) :
    mulReference a b = roundExact ((unpack a).s ^^ (unpack b).s) (productUnits a b) (-150) := by
  rw [productUnits, roundExact_of_roundsToOdd (.inl (by push_cast; rfl)) (.inr rfl)
    (Nat.mul_ne_zero (sig_ne_zero _) (sig_ne_zero _)), mulReference, sig_eq, sig_eq]
  congr 1

theorem ulp_mul_ulp (s t : Bool) (x y : Nat) : ulp s x * ulp t y = ulp (s ^^ t) 0 * (2 ^ (x + y) / 2 ^ 150) := by
  cases s <;> cases t <;> simp [ulp] <;> ring

theorem ieeeValue_mul {a b : Word} (ha : NormalPattern a) (hb : NormalPattern b) :
    ieeeValue a * ieeeValue b = ulp ((unpack a).s ^^ (unpack b).s) 0 * (productUnits a b / 2 ^ 150) := by
  rw [ieeeValue_eq_ulp ha, ieeeValue_eq_ulp hb, mul_mul_mul_comm, ulp_mul_ulp, productUnits]
  push_cast
  ring

/-- Settles O34: FMUL is the reference, and the reference rounds to the normal IEEE result. -/
theorem fmulAgreesWithIeee : Obligations.FmulAgreesWithIeee := by
  intro c a b w ha hb hw hmin
  rw [ieeeValue_mul ha hb] at hw hmin
  rw [← not_lt, abs_ulp_zero_mul_lt_least_normal_iff, not_lt] at hmin
  rw [fmul_eq_mulReference, mulReference_eq_roundExact, ← hw.eq_roundExact_of_normal_range hmin]

/-- Settles O51: the IEEE result is the least normal number, and FMUL rounds in the binade below it. -/
theorem fmulJustBelowTheNormalRange : Obligations.FmulJustBelowTheNormalRange := by
  intro c a b w ha hb hw hmax
  rw [ieeeValue_mul ha hb] at hw hmax ⊢
  rw [abs_ulp_zero_mul_lt_least_normal_iff] at hmax
  have hunits : (1 / 2 ^ 126 - 1 / 2 ^ 151 : ℚ) = (2 ^ 174 - 2 ^ 149 : Nat) / 2 ^ 150 / 2 ^ 150 := by norm_num
  simp only [fmul_eq_mulReference, mulReference_eq_roundExact, hunits, abs_ulp_zero_mul_lt_iff,
    hw.roundExact_below_normal_range (productUnits_pos a b) hmax]

/-- Refutes O36: the product `2^-126 - 2^-150` of `0x00FFFFFF` and `0x3F000000` has the IEEE result `0x00800000`,
and FMUL answers `0x007FFFFF`. -/
theorem not_fmulAgreesWithIeeeAsR70Says : ¬ Obligations.FmulAgreesWithIeeeAsR70Says := by
  intro h
  have ha : NormalPattern 0x00FFFFFF#32 := by decide
  have hb : NormalPattern 0x3F000000#32 := by decide
  have hn : productUnits 0x00FFFFFF#32 0x3F000000#32 = (2 ^ 24 - 1) * 2 ^ 150 := by decide
  have hround : IeeeRounds (ieeeValue 0x00FFFFFF#32 * ieeeValue 0x3F000000#32) 0x00800000#32 := by
    rw [ieeeValue_mul ha hb, hn, ulp_zero_mul _ _ 1]
    exact ieeeRounds_least_normal false (by norm_num) (by norm_num)
  have hfmul : fmul Config.defaults 0x00FFFFFF#32 0x3F000000#32 = .ok 0x007FFFFF#32 := by decide
  exact absurd (hfmul.symm.trans (h Config.defaults _ _ _ ha hb hround)) (by decide)

end Sys2Proof.Machine
end

section
/-! The obligations on FDIV's quotient, window, shifts and identities (43_divide.md R71, R72, R74): the window stands
for the exact quotient of the significands, so FDIV rounds the exact quotient once. -/

namespace Sys2Proof.Machine

/-! ### Nearest even -/

theorem nearestEven_mul_self (q : Nat) {d : Nat} (hd : 0 < d) : nearestEven (q * d) d = q := by
  have h := nearestEven_of_lt (r := 0) q (by omega : 2 * 0 < d)
  rwa [Nat.add_zero, Nat.mul_comm] at h

/-! ### The binade of a quotient -/

/-- How far the quotient `D / V` of two significands is scaled to become a significand itself. -/
def quotientShift (D V : Nat) : Nat := if V ≤ D then 23 else 24

theorem quotientShift_of_le {D V : Nat} (h : V ≤ D) : quotientShift D V = 23 := if_pos h

theorem quotientShift_of_lt {D V : Nat} (h : D < V) : quotientShift D V = 24 := if_neg h.not_ge

theorem quotientShift_le (D V : Nat) : quotientShift D V ≤ 24 := by
  rw [quotientShift]
  split <;> decide

theorem scaled_quotient_bounds (f g : BitVec 23) :
    2 ^ 23 * sig g ≤ sig f * 2 ^ quotientShift (sig f) (sig g) ∧
      sig f * 2 ^ quotientShift (sig f) (sig g) < 2 ^ 24 * sig g := by
  have hD := sig_lower f
  have hD' := sig_upper f
  have hV := sig_lower g
  have hV' := sig_upper g
  rcases Nat.lt_or_ge (sig f) (sig g) with h | h
  · rw [quotientShift_of_lt h]
    omega
  · rw [quotientShift_of_le h]
    omega

/-- The exponent field, not reduced modulo 256, that goes with the scaled quotient. -/
def quotientExponent (a b : Word) : Int :=
  (unpack a).e.toNat - (unpack b).e.toNat + 150 - quotientShift (sig (unpack a).f) (sig (unpack b).f)

/-- The reference in one form for both binades of `D / V`. -/
theorem divReference_eq (a b : Word) :
    divReference a b = packRounded ((unpack a).s ^^ (unpack b).s) (quotientExponent a b)
      (nearestEven (sig (unpack a).f * 2 ^ quotientShift (sig (unpack a).f) (sig (unpack b).f))
        (sig (unpack b).f)) := by
  simp only [divReference, ← sig_eq]
  rcases Nat.lt_or_ge (sig (unpack a).f) (sig (unpack b).f) with h | h
  · rw [if_neg h.not_ge, quotientExponent, quotientShift_of_lt h]
    congr 1
    omega
  · rw [if_pos h, quotientExponent, quotientShift_of_le h]
    congr 1
    omega

/-! ### FDIV rounds the exact quotient -/

theorem divWindow_roundsToOdd (D : Nat) {V : Nat} (hV : 0 < V) :
    RoundsToOdd (D * 2 ^ 26 : Nat) V (divWindow D V) := by
  have h := roundsToOdd_flag (D * 2 ^ 26 / V) (Nat.mod_lt (D * 2 ^ 26) hV)
  rwa [Nat.div_add_mod'] at h

theorem log2_divWindow (f g : BitVec 23) :
    Nat.log2 (divWindow (sig f) (sig g)) + quotientShift (sig f) (sig g) = 49 := by
  rcases Nat.lt_or_ge (sig f) (sig g) with h | h
  · obtain ⟨hlo, hhi⟩ := divWindow_of_lt (sig_lower f) (sig_upper f) (sig_lower g) (sig_upper g) h
    rw [quotientShift_of_lt h, (Nat.log2_eq_iff (k := 25) (by omega)).mpr ⟨hlo, by omega⟩]
  · obtain ⟨hlo, hhi⟩ := divWindow_of_le (sig_lower f) (sig_upper f) (sig_lower g) (sig_upper g) h
    rw [quotientShift_of_le h, (Nat.log2_eq_iff (k := 26) (by omega)).mpr ⟨hlo, by omega⟩]

/-- The window, with at least two bits to drop, rounds like the scaled quotient. -/
theorem nearestEven_divWindow (D : Nat) {V k j : Nat} (hV : 0 < V) (hkj : k + j = 24) :
    nearestEven (divWindow D V * 2 ^ 23) (2 ^ (25 + j)) = nearestEven (D * 2 ^ k) V := by
  have hscale : (2 : Nat) ^ 26 = 2 ^ k * (4 * 2 ^ j) := by
    rw [Nat.mul_left_comm, ← Nat.pow_add, hkj]
    rfl
  calc nearestEven (divWindow D V * 2 ^ 23) (2 ^ (25 + j))
      = nearestEven (divWindow D V) (4 * 2 ^ j) :=
        nearestEven_congr (by positivity) (by positivity) (by ring)
    _ = nearestEven (D * 2 ^ 26) (4 * 2 ^ j * V) :=
        nearestEven_of_roundsToOdd hV (Nat.two_pow_pos j) (divWindow_roundsToOdd D hV)
    _ = nearestEven (D * 2 ^ k) V := nearestEven_congr (by positivity) hV (by rw [hscale]; ring)

theorem roundExact_divWindow (f g : BitVec 23) (s : Bool) (e : Int) :
    roundExact s (divWindow (sig f) (sig g)) e =
      packRounded s (e + 26 - quotientShift (sig f) (sig g))
        (nearestEven (sig f * 2 ^ quotientShift (sig f) (sig g)) (sig g)) := by
  have hlog := log2_divWindow f g
  obtain ⟨j, hj⟩ := Nat.exists_eq_add_of_le (quotientShift_le (sig f) (sig g))
  have hlog' : Nat.log2 (divWindow (sig f) (sig g)) = 25 + j := by omega
  rw [roundExact, hlog', nearestEven_divWindow _ (Nat.pos_of_ne_zero (sig_ne_zero g)) hj.symm]
  congr 1
  omega

/-- FDIV is the reference quotient, on all operands. -/
theorem fdiv_eq_divReference {c : Config} (hN : 27 ≤ c.divIters) (a b : Word) :
    fdiv c a b = .ok (divReference a b) := by
  obtain ⟨hlo, -⟩ := divWindow_bounds (sig_lower (unpack a).f) (sig_upper (unpack a).f)
    (sig_lower (unpack b).f) (sig_upper (unpack b).f)
  simp only [fdiv, divPath_eq hN]
  rw [finishResult_eq_roundExact (normalize_ne_collapsed _ (by omega)), roundExact_divWindow,
    divReference_eq, quotientExponent, unbias, unbias]
  congr 2
  omega

/-- Settles O8: completion writes the reference quotient, `ERR`, `CNT` and `STATE`. -/
theorem fdivAnswersTheRoundedQuotient : Obligations.FdivAnswersTheRoundedQuotient := by
  intro a b s hN
  rw [exec, execFdiv, fdiv_eq_divReference hN, answer_ok]
  rfl

/-- Settles O30: the iteration count is in the quotient and its flag, and not in the window. -/
theorem fdivWindowIgnoresTheIterationCount : Obligations.FdivWindowIgnoresTheIterationCount :=
  fun _ a b hN => ⟨_, divPath_eq hN a b, rfl⟩

/-! ### Shifts -/

@[simp] theorem passes_w1 (w : Nat) (sh e : Int) : (passes w sh e).w1 = w := by
  unfold passes; split <;> rfl

/-- A left shift leaves bit 0 of the window clear. -/
theorem finish_w1_even {limit : CollapseShift} {m : Nat} {e : Int} {p : Passes}
    (h : finish limit m e = .ok (.normal p)) (hsh : 0 < p.sh1) : p.w1 % 2 = 0 := by
  obtain ⟨w, sh, hnorm, rfl⟩ := finish_normal h
  obtain ⟨-, -, -, rfl⟩ := (normalize_normal_iff ..).mp hnorm
  rw [passes_sh1] at hsh
  obtain ⟨k, hk⟩ : ∃ k, sh.toNat = k + 1 := ⟨sh.toNat - 1, by omega⟩
  rw [passes_w1, window_of_pos m hsh, hk, Nat.pow_succ, ← Nat.mul_assoc, Nat.mul_mod_left]

/-- Settles O31: comparing the significands decides the shift, and no window of FDIV is near enough to the next
binade to carry. -/
theorem fdivShiftsAndNeverCarries : Obligations.FdivShiftsAndNeverCarries := by
  refine ⟨fun limit N a b hN => ?_, by decide, by decide, by decide⟩
  have hD := sig_lower (unpack a).f
  have hD' := sig_upper (unpack a).f
  have hV := sig_lower (unpack b).f
  have hV' := sig_upper (unpack b).f
  obtain ⟨hlo, -⟩ := divWindow_bounds hD hD' hV hV'
  obtain ⟨p, hp, hsh2, -, hle, hlt⟩ :=
    finish_divWindow hD hD' hV hV' limit (unbias (unpack a).e - unbias (unpack b).e + 127)
  exact ⟨_, p, divPath_eq hN a b, hlo, hp, hle,
    fun h => ⟨hlt h, finish_w1_even hp (by rw [hlt h]; decide)⟩, hsh2⟩

/-! ### Zero divisors, identity and sign -/

/-- A divisor of 1.0 leaves significand, exponent and sign as they are. -/
theorem divReference_one (a : Word) : divReference a 0x3F800000#32 = a := by
  have hone : unpack 0x3F800000#32 = { s := false, e := 127#8, f := 0#23 } := by decide
  have hsig : sig 0#23 = 2 ^ 23 := by decide
  have hexp : ((unpack a).e.toNat : Int) - (127#8).toNat + 150 - (23 : Nat) = (unpack a).e.toNat := by
    have : (127#8).toNat = 127 := rfl
    omega
  rw [divReference_eq, quotientExponent, hone, hsig, quotientShift_of_le (sig_lower _),
    nearestEven_mul_self _ (by decide), hexp, packRounded, if_neg (sig_upper _).ne, Bool.xor_false, pack_unpack]

/-- Settles O32: the reference has the identity and the sign, and no significand is 0. -/
theorem fdivZeroDivisorIdentityAndSign : Obligations.FdivZeroDivisorIdentityAndSign := by
  refine ⟨fun c a hN => ?_, fun c a b y hN h => ?_, fun c a b _ => ⟨sig_lower _, fdiv_answers c a b⟩,
    by decide, by decide, by decide, by decide⟩
  · rw [fdiv_eq_divReference hN, divReference_one]
  · rw [fdiv_eq_divReference hN, divReference_eq] at h
    cases h
    exact packRounded_sign ..

end Sys2Proof.Machine
end

section
/-! The obligations on FDIV's agreement with IEEE 754 (43_divide.md R73): the exact quotient is a scaled quotient of
significands in the binade of its exponent field; a field of 1 to 254 gives the normal IEEE result, and below that
only the greatest quotient of the field 0 has one. -/

namespace Sys2Proof.Machine

/-! ### The exact quotient -/

/-- The quotient of two patterns' significands, scaled into `[2^23, 2^24)`. -/
def significandQuotient (a b : Word) : ℚ :=
  (sig (unpack a).f * 2 ^ quotientShift (sig (unpack a).f) (sig (unpack b).f) : Nat) / sig (unpack b).f

theorem significandQuotient_bounds (a b : Word) :
    2 ^ 23 ≤ significandQuotient a b ∧ significandQuotient a b < 2 ^ 24 := by
  obtain ⟨hlo, hhi⟩ := scaled_quotient_bounds (unpack a).f (unpack b).f
  have hpos : (0 : ℚ) < sig (unpack b).f := by exact_mod_cast Nat.pos_of_ne_zero (sig_ne_zero _)
  rw [significandQuotient, le_div_iff₀ hpos, div_lt_iff₀ hpos]
  exact ⟨by exact_mod_cast hlo, by exact_mod_cast hhi⟩

theorem ulp_div_ulp (s t : Bool) (x y : Nat) : ulp s x / ulp t y = ulp (s ^^ t) 0 * (2 ^ 150 * 2 ^ x / 2 ^ y) := by
  cases s <;> cases t <;> simp [ulp] <;> field_simp

/-- The scaling of the significands' quotient and the exponent field make up for each other. -/
theorem two_zpow_quotientExponent (a b : Word) :
    (2 : ℚ) ^ quotientExponent a b * 2 ^ quotientShift (sig (unpack a).f) (sig (unpack b).f) =
      2 ^ 150 * 2 ^ (unpack a).e.toNat / 2 ^ (unpack b).e.toNat := by
  rw [eq_div_iff (by positivity)]
  simp only [← zpow_natCast, ← zpow_add₀ (two_ne_zero (α := ℚ)), quotientExponent]
  congr 1
  push_cast
  ring

theorem ieeeValue_div {a b : Word} (ha : NormalPattern a) (hb : NormalPattern b) :
    ieeeValue a / ieeeValue b =
      ulp ((unpack a).s ^^ (unpack b).s) 0 * (2 ^ quotientExponent a b * significandQuotient a b) := by
  rw [ieeeValue_eq_ulp ha, ieeeValue_eq_ulp hb, mul_div_mul_comm, ulp_div_ulp, ← two_zpow_quotientExponent,
    significandQuotient]
  push_cast
  ring

/-- The magnitude of an exact quotient, between powers of two. -/
theorem abs_ieeeValue_div_bounds {a b : Word} (ha : NormalPattern a) (hb : NormalPattern b) :
    2 ^ (quotientExponent a b - 127) ≤ |ieeeValue a / ieeeValue b| ∧
      |ieeeValue a / ieeeValue b| < 2 ^ (quotientExponent a b - 126) := by
  obtain ⟨hlo, hhi⟩ := significandQuotient_bounds a b
  have hpos : (0 : ℚ) < 2 ^ quotientExponent a b := by positivity
  have hQ : 0 < significandQuotient a b := by linarith
  have habs : |ieeeValue a / ieeeValue b| = 2 ^ quotientExponent a b * (significandQuotient a b / 2 ^ 150) := by
    rw [ieeeValue_div ha hb, abs_mul, abs_ulp, abs_of_pos (mul_pos hpos hQ)]
    ring
  have h127 : (2 : ℚ) ^ (quotientExponent a b - 127) = 2 ^ quotientExponent a b * (2 ^ 23 / 2 ^ 150) := by
    rw [zpow_sub₀ two_ne_zero, div_eq_mul_inv]
    norm_num
  have h126 : (2 : ℚ) ^ (quotientExponent a b - 126) = 2 ^ quotientExponent a b * (2 ^ 24 / 2 ^ 150) := by
    rw [zpow_sub₀ two_ne_zero, div_eq_mul_inv]
    norm_num
  rw [habs, h127, h126]
  constructor <;> gcongr

/-- On the grid of an exponent field. -/
theorem ieeeValue_div_eq_ulp {a b : Word} (ha : NormalPattern a) (hb : NormalPattern b) {e : Nat}
    (he : quotientExponent a b = e) :
    ieeeValue a / ieeeValue b = ulp ((unpack a).s ^^ (unpack b).s) e * significandQuotient a b := by
  rw [ieeeValue_div ha hb, he, zpow_natCast, ← mul_assoc, ← ulp_add, Nat.zero_add]

/-! ### In the normal range -/

theorem quotientExponent_le_of_ieeeRounds {a b w : Word} (ha : NormalPattern a) (hb : NormalPattern b)
    (h : IeeeRounds (ieeeValue a / ieeeValue b) w) : quotientExponent a b ≤ 254 := by
  obtain ⟨-, hmax, -⟩ := h
  obtain ⟨hlo, -⟩ := abs_ieeeValue_div_bounds ha hb
  have hpow : (2 : ℚ) ^ (quotientExponent a b - 127) < 2 ^ (128 : Int) :=
    hlo.trans_lt (hmax.trans (by norm_num))
  have := (zpow_lt_zpow_iff_right₀ one_lt_two).mp hpow
  omega

theorem one_le_quotientExponent_iff {a b : Word} (ha : NormalPattern a) (hb : NormalPattern b) :
    1 ≤ quotientExponent a b ↔ 1 / 2 ^ 126 ≤ |ieeeValue a / ieeeValue b| := by
  obtain ⟨hlo, hhi⟩ := abs_ieeeValue_div_bounds ha hb
  have hleast : (1 / 2 ^ 126 : ℚ) = 2 ^ (-126 : Int) := by norm_num
  rw [hleast]
  constructor
  · intro hE
    exact (zpow_le_zpow_right₀ one_le_two (by omega)).trans hlo
  · intro hmin
    have := (zpow_lt_zpow_iff_right₀ (one_lt_two (α := ℚ))).mp (hmin.trans_lt hhi)
    omega

/-- Settles O35: FDIV is the reference, and the exponent field of a quotient in the normal range that has an IEEE
result is 1 to 254. -/
theorem fdivAgreesWithIeee : Obligations.FdivAgreesWithIeee := by
  intro c a b w hN ha hb hw hmin
  have hE := (one_le_quotientExponent_iff ha hb).mpr hmin
  have hE' := quotientExponent_le_of_ieeeRounds ha hb hw
  obtain ⟨e, he⟩ := Int.eq_ofNat_of_zero_le (show 0 ≤ quotientExponent a b by omega)
  obtain ⟨hlo, hhi⟩ := scaled_quotient_bounds (unpack a).f (unpack b).f
  rw [fdiv_eq_divReference hN, divReference_eq, he,
    hw.eq_packRounded (by omega) (by omega) (Nat.pos_of_ne_zero (sig_ne_zero _)) hlo hhi
      (ieeeValue_div_eq_ulp ha hb he)]

/-! ### Just below the normal range -/

/-- The greatest scaled quotient is the only one above `2^24 - 1` or equal to it. -/
theorem scaled_quotient_eq_of_ge (f g : BitVec 23)
    (h : (2 ^ 24 - 1) * sig g ≤ sig f * 2 ^ quotientShift (sig f) (sig g)) :
    sig f * 2 ^ quotientShift (sig f) (sig g) = (2 ^ 24 - 1) * sig g := by
  have hD := sig_upper f
  have hV := sig_lower g
  have hV' := sig_upper g
  rcases Nat.lt_or_ge (sig f) (sig g) with hlt | hge
  · rw [quotientShift_of_lt hlt] at h ⊢
    omega
  · rw [quotientShift_of_le hge] at h ⊢
    omega

/-- Below the normal range, only the greatest quotient of exponent field 0 has a normal IEEE result, and that is the
least normal number. -/
theorem IeeeRounds.quotient_below_normal_range {a b w : Word} (ha : NormalPattern a) (hb : NormalPattern b)
    (h : IeeeRounds (ieeeValue a / ieeeValue b) w) (hE : quotientExponent a b ≤ 0) :
    w = pack ((unpack a).s ^^ (unpack b).s) 1 (2 ^ 23) ∧ quotientExponent a b = 0 ∧
      sig (unpack a).f * 2 ^ quotientShift (sig (unpack a).f) (sig (unpack b).f) =
        (2 ^ 24 - 1) * sig (unpack b).f := by
  obtain ⟨hlo, hhi⟩ := significandQuotient_bounds a b
  have hQ : 0 < significandQuotient a b := by linarith
  have hscaled {x : Int} (hx : quotientExponent a b ≤ x) :
      2 ^ quotientExponent a b * significandQuotient a b ≤ 2 ^ x * significandQuotient a b :=
    mul_le_mul_of_nonneg_right (zpow_le_zpow_right₀ one_le_two hx) hQ.le
  have hgrid := ulp_add ((unpack a).s ^^ (unpack b).s) 0 1
  have hhalf : ieeeValue a / ieeeValue b = ulp ((unpack a).s ^^ (unpack b).s) 1 *
      (2 ^ quotientExponent a b * significandQuotient a b / 2) := by
    rw [ieeeValue_div ha hb, hgrid]
    ring
  rw [hhalf] at h
  have hone := hscaled hE
  rw [zpow_zero, one_mul] at hone
  obtain ⟨hw, hnear⟩ := h.eq_least_normal (by positivity) (by linarith)
  have hzero : quotientExponent a b = 0 := by
    by_contra hne
    have hle := hscaled (x := -1) (by omega)
    rw [zpow_neg_one] at hle
    linarith
  refine ⟨hw, hzero, scaled_quotient_eq_of_ge _ _ ?_⟩
  have hV : (0 : ℚ) < sig (unpack b).f := by exact_mod_cast Nat.pos_of_ne_zero (sig_ne_zero _)
  rw [hzero, zpow_zero, one_mul] at hnear
  have htop : ((2 ^ 24 - 1 : Nat) : ℚ) ≤ significandQuotient a b := by
    push_cast
    linarith
  rw [significandQuotient, le_div_iff₀ hV] at htop
  exact_mod_cast htop

/-- The pattern below the least normal number holds the greatest significand of exponent field 0. -/
theorem least_normal_sub_one (s : Bool) : pack s 1 (2 ^ 23) - 1#32 = pack s 0 (2 ^ 24 - 1) := by
  cases s <;> decide

/-- Settles O52: FDIV rounds that quotient in the binade of exponent field 0, where it is a significand. -/
theorem fdivJustBelowTheNormalRange : Obligations.FdivJustBelowTheNormalRange := by
  intro c a b w hN ha hb hw hmax
  have hE := (one_le_quotientExponent_iff ha hb).not.mpr hmax.not_ge
  obtain ⟨rfl, hzero, htop⟩ := hw.quotient_below_normal_range ha hb (by omega)
  have hV : (sig (unpack b).f : ℚ) ≠ 0 := Nat.cast_ne_zero.mpr (sig_ne_zero _)
  constructor
  · rw [ieeeValue_div_eq_ulp ha hb (e := 0) hzero, significandQuotient, htop, Nat.cast_mul,
      mul_div_cancel_right₀ _ hV, abs_mul, abs_ulp]
    norm_num
  · rw [fdiv_eq_divReference hN, divReference_eq, hzero, htop,
      nearestEven_mul_self _ (Nat.pos_of_ne_zero (sig_ne_zero _)), packRounded, if_neg (by decide),
      least_normal_sub_one]

end Sys2Proof.Machine
end

section
/-! The obligations on exceptions and the error response (60_exceptions.md R75, R77, R78): every instruction completes
with its transaction-level response, so no edge stops the core, and `ERR` is 1 for the reserved op code only. -/

namespace Sys2Proof.Machine

/-! ### Completion -/

/-- Every instruction completes with the response of its own request, whatever the request registers hold. -/
theorem exec_of_sf32 {i : Instr} {s : State} {rsp : Response} (h : sf32 s.config i.request = .ok rsp) :
    exec i s = .next (s.complete rsp.y rsp.err) := by
  have held := exec_current_of_sf32 (s := s.placeRequest i.request) (t := s) rfl h
  rwa [State.current, State.placeRequest_request, decodeRequest_request] at held

theorem exec_completes (i : Instr) (s : State) : ∃ y e, exec i s = .next (s.complete y e) := by
  obtain ⟨rsp, h⟩ := sf32_answers s.config i.request
  exact ⟨rsp.y, rsp.err, exec_of_sf32 h⟩

/-- Settles O11: completion writes `Y`, `ERR`, `CNT` and `STATE` only. -/
theorem everyRequestCompletes : Obligations.EveryRequestCompletes := exec_completes

/-- Settles O41: the completing edge is the only one that could stop, and the instruction held completes there. -/
theorem noEdgeStopsTheCore : Obligations.NoEdgeStopsTheCore := by
  intro s
  rcases step_cases (s := s) rfl with ⟨-, h⟩ | ⟨-, -, -, h⟩ | ⟨-, -, -, h⟩ | ⟨-, -, -, h⟩ | ⟨-, -, -, h⟩ |
    ⟨-, -, -, h⟩ | ⟨-, -, -, h⟩
  case inr.inr.inr.inl =>
    obtain ⟨y, e, he⟩ := exec_completes s.current s.tick
    exact ⟨_, h.trans he⟩
  all_goals exact ⟨_, h⟩

/-! ### The model faults -/

theorem hsb_eq_error_iff (v : Nat) : hsb v = .error .hsbOfZero ↔ v = 0 := by
  by_cases h : v = 0
  · simp [h]
  · simp [h, hsb_of_ne_zero h]

theorem longdiv_eq_error_iff (n D V : Nat) : longdiv n D V = .error .divisorZero ↔ V = 0 := by
  by_cases h : V = 0
  · simp [h]
  · simp [h, longdiv_of_ne_zero n D h]

/-- Settles O13: each primitive faults at its guard, which no operator meets. -/
theorem modelFaultsAreReachedByNoRequest : Obligations.ModelFaultsAreReachedByNoRequest :=
  ⟨hsb_eq_error_iff, longdiv_eq_error_iff, sf32_answers⟩

/-! ### The error response -/

/-- `ERR` after completion says whether the op code was the reserved one (60_exceptions.md R77). -/
theorem exec_err {i : Instr} {s t : State} (h : exec i s = .next t) : t.err = decide (i.op = 0b11#2) := by
  cases i with
  | fadd a b => obtain ⟨y, -, rfl⟩ := answer_next h; rfl
  | fmul a b => obtain ⟨y, -, rfl⟩ := answer_next h; rfl
  | fdiv a b => obtain ⟨y, -, rfl⟩ := answer_next h; rfl
  | reserved a b => cases h; rfl

/-- Settles O9: the reserved op code has its fixed response, an idle core captures every request by the same edge,
and any other op code leaves `ERR` 0. -/
theorem reservedOpAnswersTheErrorResponse : Obligations.ReservedOpAnswersTheErrorResponse := by
  refine ⟨fun a b s => ?_, fun s hr hs hv => step_of_edge (.accept hr hs hv), fun i s t hop h => ?_⟩
  · exact answer_ok 0#32 errReserved s
  · rw [exec_err h, decide_eq_false hop]

end Sys2Proof.Machine
end

section
/-! The obligations on reset and hazards (70_reset_and_hazards.md R84 to R92): the edge table as equations of `step`,
reset, the distance between acceptances, and a response that depends on the request alone. -/

namespace Sys2Proof

/-! ### Rows of the opcode table as request words -/

theorem ofNat_append_byte (n w : Nat) :
    BitVec.ofNat n (w / 256) ++ BitVec.ofNat 8 w = BitVec.ofNat (n + 8) w := by
  apply BitVec.eq_of_getLsbD_eq
  intro j hj
  rw [BitVec.getLsbD_append, BitVec.getLsbD_ofNat, BitVec.getLsbD_ofNat, BitVec.getLsbD_ofNat]
  by_cases hj8 : j < 8
  · simp [hj8, hj]
  · have hbit : (w / 256).testBit (j - 8) = w.testBit j := by
      rw [show 256 = 2 ^ 8 from rfl, Nat.testBit_div_two_pow, Nat.sub_add_cancel (by omega)]
    have hhigh : j - 8 < n := by omega
    simp [hj8, hj, hhigh, hbit]

theorem decodeBytes_bytesOfNat (w : Nat) {i : Instr} {rest : List Byte}
    (h : decodeBytes (bytesOfNat 9 w) = .ok (i, rest)) : decodeCmd (BitVec.ofNat 66 w) = i := by
  simp only [bytesOfNat, decodeBytes] at h
  split_ifs at h
  cases h
  rw [cmdOfBytes, BitVec.setWidth_ofNat_of_le (by decide)]
  simp only [ofNat_append_byte]

theorem decodeCmd_of_decodeTableWord {nbits w : Nat} {i : Instr} (h : decodeTableWord nbits w = some i) :
    decodeCmd (BitVec.ofNat 66 w) = i := by
  unfold decodeTableWord at h
  split_ifs at h
  cases hbytes : decodeBytes (bytesOfNat 9 w) with
  | error e => simp [hbytes] at h
  | ok r =>
    rw [hbytes] at h
    cases h
    exact decodeBytes_bytesOfNat w hbytes

end Sys2Proof

namespace Sys2Proof.Machine

/-! ### The completing edge -/

theorem step_eq_exec_current {s : State} (hr : s.pins.rst = false) (hs : s.state = .busy) (hc : s.cnt = 1) :
    step s = exec s.current s.tick := by
  simp [step, clockEdge, hr, hs, hc]

/-- Settles O37: the instruction held is the one its request word decodes to, and `withFetchWord` makes the coming
edge the completing one. -/
theorem stepRunsTheDecodedInstruction : Obligations.StepRunsTheDecodedInstruction := by
  refine ⟨fun s i hr hs hc hi _ => ?_, fun s nbits w i hi => ?_⟩
  · rw [decodeCmd_cmdOfRequest] at hi
    rw [step_eq_exec_current hr hs hc, State.current, hi, State.tick]
  · have hcurrent : (s.withFetchWord nbits w).current = i := decodeCmd_of_decodeTableWord hi
    rw [step_eq_exec_current (s := s.withFetchWord nbits w) rfl rfl rfl, hcurrent]
    rfl

/-! ### The edge table -/

theorem State.countDown_of_ne_zero {s : State} (h : s.cnt ≠ 0) : s.countDown = { s with cnt := s.cnt - 1 } := by
  rw [State.countDown, if_neg h]

/-- Settles O38: each clause is an edge of the table; the count of a busy core that does not complete is not 0, so
it does not wrap. -/
theorem edgesWithoutReset : Obligations.EdgesWithoutReset := by
  intro s hr
  refine ⟨fun hs hv => step_of_edge (.accept hr hs hv), fun hs hv => step_of_edge (.stayIdle hr hs hv),
    fun hs hc _ hrsp => step_of_edge (.complete hr hs hc hrsp), fun hs hc => ?_,
    fun hs hv => step_of_edge (.release hr hs hv), fun hs hv => step_of_edge (.stayDone hr hs hv)⟩
  have hcount : s.tick.cnt ≠ 0 := by rw [State.tick_cnt]; omega
  rw [step_of_edge (.countDown hr hs (by omega)), State.countDown_of_ne_zero hcount]
  rfl

/-! ### Reset -/

/-- Settles O39: the reset row of the edge table, and the values written in `State.reset`. -/
theorem resetEdgeSetsEveryRegister : Obligations.ResetEdgeSetsEveryRegister :=
  ⟨fun _ hr => step_of_edge (.reset hr), rfl, rfl, rfl, rfl, rfl, rfl, rfl⟩

/-- Settles O40: a reset edge leaves the core idle, and an idle core accepts. -/
theorem readyInTheFirstCycleAfterReset : Obligations.ReadyInTheFirstCycleAfterReset := by
  intro s p q ps hd hp hq
  have hpins : s.pins = p := State.pins_of_drive hd
  have hnext : s.tick.applyReset.pins = q := State.pins_of_drive (ps := ps) (by simp [hd])
  refine ⟨_, step_of_edge (.reset (hpins ▸ hp)), rfl, rfl, fun hv => ?_⟩
  exact ⟨_, step_of_edge (.accept (hnext ▸ hq) rfl (hnext ▸ hv)), congrArg Pins.request hnext, rfl, rfl⟩

/-! ### The distance between acceptances -/

/-- `k + 1` edges without reset are one and `k` more; past its end the host is quiet, which is no reset. -/
theorem noReset_succ (k : Nat) (s : State) : NoReset (k + 1) s ↔ s.pins.rst = false ∧ NoReset k s.tick := by
  unfold NoReset State.pins
  rw [State.tick_drive]
  cases s.drive with
  | nil => simp
  | cons p ps => simp

/-- A busy core is not ready for the next `CNT` edges: it counts down, and then shows the response. -/
theorem runsTo_not_ready_of_busy {k : Nat} {s : State} (hs : s.state = .busy) (hpos : 1 ≤ s.cnt) (hk : k ≤ s.cnt)
    (hnr : NoReset k s) : ∃ t, RunsTo k s t ∧ t.outputs.reqReady = false := by
  induction k generalizing s with
  | zero => exact ⟨s, (runsTo_zero s s).mpr rfl, by simp [hs]⟩
  | succ k ih =>
    obtain ⟨hr, hnr⟩ := (noReset_succ _ _).mp hnr
    by_cases hc : s.cnt = 1
    · obtain rfl : k = 0 := by omega
      obtain ⟨rsp, hrsp⟩ := sf32_answers s.config s.request
      exact ⟨_, runsTo_one (.complete hr hs hc hrsp), rfl⟩
    · have hcnt : s.tick.countDown.cnt = s.cnt - 1 := s.tick.countDown_cnt (by rw [State.tick_cnt]; omega)
      obtain ⟨t, hrun, ht⟩ := ih (s := s.tick.countDown) hs (by omega) (by omega) hnr
      exact ⟨t, (runsTo_succ _ _ _).mpr ⟨_, step_of_edge (.countDown hr hs hc), hrun⟩, ht⟩

/-- With `LATENCY = 1` acceptance, completion and taking are three consecutive edges (70_reset_and_hazards.md R89). -/
theorem runsTo_served_of_latency_one {s : State} {p q r : Pins} {ps : List Pins} {rsp : Response}
    (hlat : s.config.latency = 1) (hs : s.state = .idle) (hd : s.drive = p :: q :: r :: ps) (hp : p.rst = false)
    (hpv : p.reqValid = true) (hq : q.rst = false) (hr : r.rst = false) (hrv : r.rspReady = true)
    (hrsp : sf32 s.config p.request = .ok rsp) :
    RunsTo 3 s { s.served p.request rsp with drive := ps } := by
  have haccept := runsTo_counting (w := []) hs hd hp hpv (by simp) (by simp [hlat])
  rw [List.length_nil, Nat.sub_zero, hlat] at haccept
  have hcomplete : RunsTo 1 (s.counting p.request 1 (q :: r :: ps)) (s.answered p.request rsp (r :: ps)) :=
    runsTo_one (.complete (s := s.counting p.request 1 (q :: r :: ps)) hq rfl rfl hrsp)
  exact runsTo_add (runsTo_add haccept hcomplete) (runsTo_served p.request rsp hr hrv)

/-- Settles O47: after acceptance `CNT` is `LATENCY`, which keeps the core from being ready; the eager host of the
second clause is served in three edges and then accepted again. -/
theorem acceptancesAreLatencyPlusTwoApart : Obligations.AcceptancesAreLatencyPlusTwoApart := by
  refine ⟨fun s k hlegal hs hv hk hkl hnr => ?_, fun s hlat hs hlen hpins => ?_⟩
  · obtain ⟨k, rfl⟩ := Nat.exists_eq_add_of_le' hk
    obtain ⟨hr, hnr⟩ := (noReset_succ _ _).mp hnr
    obtain ⟨t, hrun, ht⟩ := runsTo_not_ready_of_busy (s := s.tick.accept s.pins.request) rfl
      (Config.one_le_latency hlegal) (Nat.le_of_succ_le_succ hkl) hnr
    exact ⟨t, (runsTo_succ _ _ _).mpr ⟨_, step_of_edge (.accept hr hs hv), hrun⟩, ht⟩
  · match hd : s.drive, hlen, hpins with
    | p :: q :: r :: x :: ps, _, hpins =>
      simp only [List.take_succ_cons, List.take_zero, List.forall_mem_cons] at hpins
      obtain ⟨⟨hp, hpv, -⟩, ⟨hq, -, -⟩, ⟨hr, -, hrv⟩, ⟨hx, hxv, -⟩, -⟩ := hpins
      obtain ⟨rsp, hrsp⟩ := sf32_answers s.config p.request
      have hagain := step_of_edge
        (.accept (s := { s.served p.request rsp with drive := x :: ps }) hx rfl hxv)
      exact ⟨_, _, runsTo_served_of_latency_one hlat hs hd hp hpv hq hr hrv hrsp, rfl, hagain, rfl, rfl⟩

/-! ### The response depends on the request alone -/

/-- Every legal core has the 27 iterations that the quotient window takes (43_divide.md R71). -/
theorem Config.divIters_ge {c : Config} (h : c.legal = true) : 27 ≤ c.divIters := by
  simp only [Config.legal, Bool.and_eq_true, decide_eq_true_eq] at h
  omega

/-- `NORM_COLLAPSE_SHIFT` is the only build parameter that a response depends on. -/
theorem sf32_congr {c d : Config} (hc : c.legal = true) (hd : d.legal = true)
    (hshift : c.collapseShift = d.collapseShift) (r : Request) : sf32 c r = sf32 d r := by
  have hadd : fadd c r.a r.b = fadd d r.a r.b := by rw [fadd_eq_addReference, fadd_eq_addReference, hshift]
  have hmul : fmul c r.a r.b = fmul d r.a r.b := by rw [fmul_eq_mulReference, fmul_eq_mulReference]
  have hdiv : fdiv c r.a r.b = fdiv d r.a r.b := by
    rw [fdiv_eq_divReference (Config.divIters_ge hc), fdiv_eq_divReference (Config.divIters_ge hd)]
  rw [sf32, sf32, hadd, hmul, hdiv]

/-- The completing edge writes the transaction-level response. -/
theorem sf32_of_completing_step {s t : State} (hr : s.pins.rst = false) (hs : s.state = .busy) (hc : s.cnt = 1)
    (h : step s = .next t) : sf32 s.config s.request = .ok { y := t.y, err := t.err } := by
  obtain ⟨rsp, hrsp⟩ := sf32_answers s.config s.request
  cases (step_of_edge (.complete hr hs hc hrsp)).symm.trans h
  exact hrsp

/-- Settles O48: each operator is its reference, which names no build parameter but `NORM_COLLAPSE_SHIFT`; both
completing edges write the response of the one request. -/
theorem responseDependsOnTheRequestAlone : Obligations.ResponseDependsOnTheRequestAlone := by
  refine ⟨fun c d r hc hd hshift => sf32_congr hc hd hshift r, ?_⟩
  intro s t u v hs ht hshift hsr htr hsb htb hsc htc hreq hsu htv
  have hu := sf32_of_completing_step hsr hsb hsc hsu
  have hv := sf32_of_completing_step htr htb htc htv
  rw [hreq, sf32_congr hs ht hshift] at hu
  exact Response.mk.inj (Except.ok.inj (hu.symm.trans hv))

end Sys2Proof.Machine
end
